-- ==== Sys2Proof/Word.lean ====
section
/-! DEFINITION. The widths of the block (00_scope.md R6, R8; 30_encoding.md R60). -/

namespace Sys2Proof

/-- `din`, and one byte of a frame (R8, R21). -/
abbrev Byte := BitVec 8

/-- A 16-bit field of the frame, or a CRC value (R6). -/
abbrev Half := BitVec 16

/-- `rdata`, 32 bits (R8). -/
abbrev Word := BitVec 32

/-- A command word `cmd` of ten bits, the two of `op` above the eight of `din` (30_encoding.md R60). -/
abbrev CmdWord := BitVec 10

/-- `raddr`, 6 bits (R8). -/
abbrev ReadAddr := BitVec 6

/-- The 64 bytes of a RawFrame, index 0 the first byte received (R6, R12, R21, R24). -/
abbrev Frame := Vector Byte 64

end Sys2Proof
end

