-- ==== Sys2Proof/Syntax.lean ====
section
/-! DEFINITION. The instructions (one constructor per row of spec/opcode_table.json), the words that carry them,
and what the host can drive on the ports. -/

namespace Sys2Proof

/-- The rows of spec/opcode_table.json, in its order: four commands, then the read forms. -/
inductive Instr where
  /-- NOP (40_capture.md R80). -/
  | nop
  /-- CLEAR (R81). -/
  | clear
  /-- PUSH imm8 (R82). -/
  | push (imm8 : Byte)
  /-- ILLEGAL, the reserved command (R85). -/
  | illegal
  /-- RD_BIN i, i = 0..15 (41_frame_decode.md R101). -/
  | rdBin (i : Nat)
  /-- RD_TOF j, j = 0..3 (R102). -/
  | rdTof (j : Nat)
  /-- RD_FLOW (R103). -/
  | rdFlow
  /-- RD_TSIG (R104). -/
  | rdTsig
  /-- RD_TEMPC (R105). -/
  | rdTempc
  /-- RD_HSIG (R106). -/
  | rdHsig
  /-- RD_RH (R107). -/
  | rdRh
  /-- RD_PERIOD (R108). -/
  | rdPeriod
  /-- RD_RGLITCH (R109). -/
  | rdRglitch
  /-- RD_RLONG (R110). -/
  | rdRlong
  /-- RD_PM1 (R111). -/
  | rdPm1
  /-- RD_PM25 (R111). -/
  | rdPm25
  /-- RD_PM10 (R111). -/
  | rdPm10
  /-- RD_DEVCRC (42_checksum.md R142). -/
  | rdDevcrc
  /-- RD_CRC (R143). -/
  | rdCrc
  /-- RD_STATUS (10_state.md R29). -/
  | rdStatus
  /-- RD_RUNCRC (R30). -/
  | rdRuncrc
  /-- RESERVED_RD at address 0x23 (30_encoding.md R64); the next twelve are the rows of 0x24 to 0x2F. -/
  | reservedRd23
  | reservedRd24
  | reservedRd25
  | reservedRd26
  | reservedRd27
  | reservedRd28
  | reservedRd29
  | reservedRd2A
  | reservedRd2B
  | reservedRd2C
  | reservedRd2D
  | reservedRd2E
  | reservedRd2F
  /-- RD_RAW k, k = 0..15 (41_frame_decode.md R116). -/
  | rdRaw (k : Nat)
deriving DecidableEq, Repr

/-- A word that carries an instruction: a command word on `op` and `din`, or an address on `raddr` (R60). -/
inductive PortWord where
  | command (cmd : CmdWord)
  | read (raddr : ReadAddr)
deriving DecidableEq, Repr

/-- What the host drives on the ports, one item after the other (log 1). -/
inductive PortInput where
  /-- `word (.command cmd)`: an edge with `rst = 0` and this command word. `word (.read raddr)`: a read, which
  takes no edge (30_encoding.md R67). -/
  | word (w : PortWord)
  /-- An edge with `rst = 1`; `cmd` is what stands on `op` and `din`, and is ignored (60_exceptions.md R164). -/
  | rst (cmd : CmdWord)
deriving DecidableEq, Repr

end Sys2Proof
end

