-- ==== Sys2Proof/WellFormed.lean ====
section
/-! DEFINITION. Which terms of `Instr` are instructions: an index fits the slice of the address that carries it
(30_encoding.md R62). -/

namespace Sys2Proof

/-- The bin index is `raddr[3:0]` (R62, R101). -/
def binIndexOk (i : Nat) : Bool := decide (i < 16)

/-- The time-of-flight index is `raddr[1:0]` (R62, R102). -/
def tofIndexOk (j : Nat) : Bool := decide (j < 4)

/-- The raw word index is `raddr[3:0]` (R62, R116). -/
def rawIndexOk (k : Nat) : Bool := decide (k < 16)

/-- A term that some word on the ports stands for. -/
def Instr.wellFormed : Instr → Bool
  | .nop => true
  | .clear => true
  | .push _ => true
  | .illegal => true
  | .rdBin i => binIndexOk i
  | .rdTof j => tofIndexOk j
  | .rdFlow => true
  | .rdTsig => true
  | .rdTempc => true
  | .rdHsig => true
  | .rdRh => true
  | .rdPeriod => true
  | .rdRglitch => true
  | .rdRlong => true
  | .rdPm1 => true
  | .rdPm25 => true
  | .rdPm10 => true
  | .rdDevcrc => true
  | .rdCrc => true
  | .rdStatus => true
  | .rdRuncrc => true
  | .reservedRd23 => true
  | .reservedRd24 => true
  | .reservedRd25 => true
  | .reservedRd26 => true
  | .reservedRd27 => true
  | .reservedRd28 => true
  | .reservedRd29 => true
  | .reservedRd2A => true
  | .reservedRd2B => true
  | .reservedRd2C => true
  | .reservedRd2D => true
  | .reservedRd2E => true
  | .reservedRd2F => true
  | .rdRaw k => rawIndexOk k

/-- `Instr.wellFormed` as a proposition. -/
abbrev Instr.WellFormed (i : Instr) : Prop := i.wellFormed = true

end Sys2Proof
end

