-- ==== Sys2Proof/Decode.lean ====
section
/-! DEFINITION. From words to instructions and back: the decode of command words (30_encoding.md R61) and of read
addresses (R63), both total; the encoder (R67, R63); each instruction's row of spec/opcode_table.json; and the byte
form in which the host's opcode table presents a word (log 11), which rejects by name. -/

namespace Sys2Proof

/-- The instruction of a command word: `op` selects the row and `din` is used by PUSH alone (R61, R62). -/
def decodeCommand (cmd : CmdWord) : Instr :=
  let op := cmd.extractLsb' 8 2
  let din := cmd.extractLsb' 0 8
  if op = 0b00#2 then .nop
  else if op = 0b01#2 then .clear
  else if op = 0b10#2 then .push din
  else .illegal

/-- The read forms without an index, addresses 0x14 to 0x2F of R63, in the order of their addresses. -/
def fixedReads : List Instr :=
  [.rdFlow, .rdTsig, .rdTempc, .rdHsig, .rdRh, .rdPeriod, .rdRglitch, .rdRlong, .rdPm1, .rdPm25, .rdPm10, .rdDevcrc]
  ++ [.rdCrc, .rdStatus, .rdRuncrc]
  ++ [.reservedRd23, .reservedRd24, .reservedRd25, .reservedRd26, .reservedRd27, .reservedRd28, .reservedRd29,
      .reservedRd2A, .reservedRd2B, .reservedRd2C, .reservedRd2D, .reservedRd2E]

/-- The read form of an address (R63, R62). The last address without an index, 0x2F, is the one past
`fixedReads`. -/
def decodeRead (a : ReadAddr) : Instr :=
  if a.extractLsb' 4 2 = 0b00#2 then .rdBin (a.extractLsb' 0 4).toNat
  else if a.extractLsb' 2 4 = 0b0100#4 then .rdTof (a.extractLsb' 0 2).toNat
  else if a.extractLsb' 4 2 = 0b11#2 then .rdRaw (a.extractLsb' 0 4).toNat
  else fixedReads.getD (a.toNat - 0x14) .reservedRd2F

/-- The instruction of a word on the ports. -/
def decode : PortWord → Instr
  | .command cmd => decodeCommand cmd
  | .read a => decodeRead a

/-- The word of an instruction: command words as R67 writes them (the ignored `din` is 0), addresses as R63
gives them. -/
def encode : Instr → PortWord
  | .nop => .command 0x000
  | .clear => .command 0x100
  | .push imm8 => .command (0b10#2 ++ imm8)
  | .illegal => .command 0x300
  | .rdBin i => .read (0b00#2 ++ BitVec.ofNat 4 i)
  | .rdTof j => .read (0b0100#4 ++ BitVec.ofNat 2 j)
  | .rdFlow => .read 0x14
  | .rdTsig => .read 0x15
  | .rdTempc => .read 0x16
  | .rdHsig => .read 0x17
  | .rdRh => .read 0x18
  | .rdPeriod => .read 0x19
  | .rdRglitch => .read 0x1A
  | .rdRlong => .read 0x1B
  | .rdPm1 => .read 0x1C
  | .rdPm25 => .read 0x1D
  | .rdPm10 => .read 0x1E
  | .rdDevcrc => .read 0x1F
  | .rdCrc => .read 0x20
  | .rdStatus => .read 0x21
  | .rdRuncrc => .read 0x22
  | .reservedRd23 => .read 0x23
  | .reservedRd24 => .read 0x24
  | .reservedRd25 => .read 0x25
  | .reservedRd26 => .read 0x26
  | .reservedRd27 => .read 0x27
  | .reservedRd28 => .read 0x28
  | .reservedRd29 => .read 0x29
  | .reservedRd2A => .read 0x2A
  | .reservedRd2B => .read 0x2B
  | .reservedRd2C => .read 0x2C
  | .reservedRd2D => .read 0x2D
  | .reservedRd2E => .read 0x2E
  | .reservedRd2F => .read 0x2F
  | .rdRaw k => .read (0b11#2 ++ BitVec.ofNat 4 k)

/-! ## The rows of the opcode table -/

/-- A row of spec/opcode_table.json: a word `w` of its format is of this row when `w` under `mask` is `pattern`
(the table's "match"). -/
inductive TableRow where
  | cmd (pattern mask : CmdWord)
  | rd (pattern mask : ReadAddr)
deriving DecidableEq, Repr

/-- The row an instruction stands for, from spec/opcode_table.json. -/
def Instr.tableRow : Instr → TableRow
  | .nop => .cmd 0x000 0x300
  | .clear => .cmd 0x100 0x300
  | .push _ => .cmd 0x200 0x300
  | .illegal => .cmd 0x300 0x300
  | .rdBin _ => .rd 0x00 0x30
  | .rdTof _ => .rd 0x10 0x3C
  | .rdFlow => .rd 0x14 0x3F
  | .rdTsig => .rd 0x15 0x3F
  | .rdTempc => .rd 0x16 0x3F
  | .rdHsig => .rd 0x17 0x3F
  | .rdRh => .rd 0x18 0x3F
  | .rdPeriod => .rd 0x19 0x3F
  | .rdRglitch => .rd 0x1A 0x3F
  | .rdRlong => .rd 0x1B 0x3F
  | .rdPm1 => .rd 0x1C 0x3F
  | .rdPm25 => .rd 0x1D 0x3F
  | .rdPm10 => .rd 0x1E 0x3F
  | .rdDevcrc => .rd 0x1F 0x3F
  | .rdCrc => .rd 0x20 0x3F
  | .rdStatus => .rd 0x21 0x3F
  | .rdRuncrc => .rd 0x22 0x3F
  | .reservedRd23 => .rd 0x23 0x3F
  | .reservedRd24 => .rd 0x24 0x3F
  | .reservedRd25 => .rd 0x25 0x3F
  | .reservedRd26 => .rd 0x26 0x3F
  | .reservedRd27 => .rd 0x27 0x3F
  | .reservedRd28 => .rd 0x28 0x3F
  | .reservedRd29 => .rd 0x29 0x3F
  | .reservedRd2A => .rd 0x2A 0x3F
  | .reservedRd2B => .rd 0x2B 0x3F
  | .reservedRd2C => .rd 0x2C 0x3F
  | .reservedRd2D => .rd 0x2D 0x3F
  | .reservedRd2E => .rd 0x2E 0x3F
  | .reservedRd2F => .rd 0x2F 0x3F
  | .rdRaw _ => .rd 0x30 0x30

/-- The word is of the row's format and has the row's fixed bits. -/
def TableRow.admits : TableRow → PortWord → Bool
  | .cmd pattern mask, .command w => w &&& mask == pattern
  | .rd pattern mask, .read w => w &&& mask == pattern
  | _, _ => false

/-! ## Words as the host's opcode table presents them -/

/-- Why bytes carry no word of the ports (log 11). -/
inductive DecodeError where
  /-- Neither one byte (an address) nor two bytes (a command word). Safe: nothing is run. -/
  | wrongLength
  /-- A bit is set that no wire of the port carries. Safe: nothing is run. -/
  | unwiredBits
deriving DecidableEq, Repr

/-- One byte is an address on `raddr` with two unused bits above it; two bytes are a command word, the byte of
`din` first, with six unused bits above `op` (DESIGN CHOICE, log 11: R66 gives the widths, no byte form). -/
def portWordOfBytes : List Byte → Except DecodeError PortWord
  | [a] => if a.extractLsb' 6 2 = 0#2 then .ok (.read (a.extractLsb' 0 6)) else .error .unwiredBits
  | [din, hi] =>
    if hi.extractLsb' 2 6 = 0#6 then .ok (.command (hi.extractLsb' 0 2 ++ din)) else .error .unwiredBits
  | _ => .error .wrongLength

/-- Decoding bytes: total, and rejecting by name. -/
def decodeBytes (bs : List Byte) : Except DecodeError Instr := (portWordOfBytes bs).map decode

/-- The `n` low bytes of `w`, the least significant first. -/
def bytesOf : Nat → Nat → List Byte
  | 0, _ => []
  | n + 1, w => BitVec.ofNat 8 w :: bytesOf n (w / 256)

/-- The port word that a row of `nbits` bits with the value `w` stands for; a bit above `nbits` has no wire. -/
def portWordOfTable (nbits w : Nat) : Except DecodeError PortWord :=
  if w < 2 ^ nbits then portWordOfBytes (bytesOf ((nbits + 7) / 8) w) else .error .unwiredBits

/-- The instruction the decoder reads from a table word of `nbits` bits, `none` where it rejects. -/
def decodeTableWord (nbits w : Nat) : Option Instr :=
  match portWordOfTable nbits w with
  | .ok p => some (decode p)
  | .error _ => none

end Sys2Proof
end

