-- ==== Sys2Proof/Config.lean ====
section
/-! DEFINITION. What an instance of the block fixes when it is built (00_scope.md R7), and the values the spec
leaves unspecified, as constants without a body. -/

namespace Sys2Proof

/-- `HUM_ORDER` (00_scope.md R7): `LE` is the default, `REF` the reference's order. -/
inductive HumOrder where
  | le
  | ref
deriving DecidableEq, Repr

/-- The block's one configuration parameter (R7, R31). -/
structure Config where
  humOrder : HumOrder := .le
deriving DecidableEq, Repr

/-- FREE VALUE (log 7). What BUF holds after the `n`-th drawing `rst` edge, from what it held before:
70_reset_and_hazards.md R180 "unspecified (not written)". -/
opaque Config.resetBuf : Nat → Frame → Frame

/-- FREE VALUE (log 7). What OFR holds after the `n`-th drawing `rst` edge, from what it held before (R180). -/
opaque Config.resetOfr : Nat → Frame → Frame

/-- FREE VALUE (log 7). What OCRC holds after the `n`-th drawing `rst` edge, from what it held before (R180). -/
opaque Config.resetOcrc : Nat → Half → Half

end Sys2Proof
end

