-- ==== Sys2Proof/Machine/State.lean ====
section
/-! DEFINITION. The state of one block as plain data (10_state.md R21 to R28), the reasons a step can stop, and the
state right after reset (70_reset_and_hazards.md R180). -/

namespace Sys2Proof.Machine

open Sys2Proof

/-- Why the machine stops with a fault: never. "The block never traps" (60_exceptions.md R160), and no rule reads
an element without a value (10_state.md R21, R24, R25). No constructor, so nothing raises one (log 22; safe). -/
inductive Fault where
deriving DecidableEq, Repr

/-- Why a step gives no meaning. -/
inductive Refusal where
  /-- Raised by an arm of `exec` whose instruction has no meaning yet; no arm of this model raises it. Safe. -/
  | notModelled (mnemonic : String)
  /-- Raised by the meanings of RD_BIN, RD_TOF and RD_RAW on an index that no address carries (log 10). Safe: no
  word on the ports decodes to such a term. -/
  | illFormed
deriving DecidableEq, Repr

/-- One block. The first eight fields after `config` are the spec's state; `config`, `inputs`, `rdata` and `draws`
are the model's own (log 9, log 1, log 3, log 8). -/
structure State where
  /-- The parameter of the block's build (00_scope.md R7). No step writes it (log 9). -/
  config : Config
  /-- BUF[0..63] (R21). -/
  buf : Frame
  /-- CNT, 0 to 63 (R22). -/
  cnt : BitVec 6
  /-- RCRC (R23). -/
  rcrc : Half
  /-- OFR[0..63] (R24). -/
  ofr : Frame
  /-- OCRC (R25). -/
  ocrc : Half
  /-- OVALID (R26). -/
  ovalid : Bool
  /-- SEQ (R27). -/
  seq : BitVec 8
  /-- ERR_ILL, sticky (R28). -/
  errIll : Bool
  /-- The word the host's latest read returned (log 3). -/
  rdata : Word
  /-- What the host drives on the ports from now on, in order (log 1; R35: inputs of the step). -/
  inputs : List PortInput
  /-- How many times the unspecified contents after a `rst` edge have been drawn (log 8). -/
  draws : Nat
deriving DecidableEq, Repr

/-- Right after reset (R180): CNT, OVALID, SEQ and ERR_ILL are 0 and RCRC is 0xFFFF. BUF, OFR and OCRC, which R180
leaves unspecified, are zero by DESIGN CHOICE (log 4, log 5, log 6); HUM_ORDER is the default LE (R7). -/
def State.reset : State where
  config := { humOrder := .le }
  buf := Vector.replicate 64 0x00
  cnt := 0
  rcrc := 0xFFFF
  ofr := Vector.replicate 64 0x00
  ocrc := 0x0000
  ovalid := false
  seq := 0x00
  errIll := false
  rdata := 0x00000000
  inputs := []
  draws := 0

end Sys2Proof.Machine
end

