-- ==== Sys2Proof/Machine/Operands.lean ====
section
/-! DEFINITION. Access to one byte of a frame, and the assembly of fields from bytes: every operand form of the
spec (00_scope.md R10; 20_memory.md R42, R43, R45; 41_frame_decode.md R113, R114). -/

namespace Sys2Proof.Machine

open Sys2Proof

/-- `F[i]`, byte i of a frame (R10). The offsets of R47 and a well-formed index keep `i` below 64; past the frame
there is no byte, and no well-formed instruction asks for one. -/
def frameByte (f : Frame) (i : Nat) : Byte := f.getD i 0x00

/-- `F[i] <- b` at a 6-bit index (R83). -/
def writeByte (f : Frame) (i : BitVec 6) (b : Byte) : Frame := f.set i.toNat b i.isLt

/-- `le16(F, i)`, the byte at i+1 above the byte at i (R10, R42). -/
def le16 (f : Frame) (i : Nat) : Half := frameByte f (i + 1) ++ frameByte f i

/-- `le32(F, i)`, four bytes, the one at i+3 highest (R10, R43). -/
def le32 (f : Frame) (i : Nat) : Word :=
  frameByte f (i + 3) ++ frameByte f (i + 2) ++ frameByte f (i + 1) ++ frameByte f i

/-- `(MSB << 8) | LSB`, computed in 16 bits (R114). -/
def assemble16 (msb lsb : Byte) : Half := (msb.setWidth 16 <<< 8) ||| lsb.setWidth 16

/-- The humidity signal's two bytes in the order of HUM_ORDER: byte 43 high under LE, byte 42 high under REF
(00_scope.md R7, 41_frame_decode.md R106). -/
def humidityPair (o : HumOrder) (f : Frame) : Half :=
  match o with
  | .le => assemble16 (frameByte f 43) (frameByte f 42)
  | .ref => assemble16 (frameByte f 42) (frameByte f 43)

/-- `zext_32(v)` (R10, R45). -/
def zext32 {w : Nat} (v : BitVec w) : Word := v.setWidth 32

end Sys2Proof.Machine
end

