-- ==== Sys2Proof/Machine/Crc.lean ====
section
/-! DEFINITION. The CRC functions (42_checksum.md R140, R141). -/

namespace Sys2Proof.Machine

open Sys2Proof

/-- CRC_INIT (00_scope.md R6). -/
def crcInit : Half := 0xFFFF

/-- CRC_POLY, in reflected form (R6). -/
def crcPoly : Half := 0xA001

/-- One of the eight rounds of R140: shift right by one, and exclusive-or with the polynomial if the bit shifted
out was 1. -/
def crcRound (v : Half) : Half := if v.getLsbD 0 then (v >>> 1) ^^^ crcPoly else v >>> 1

/-- `n` rounds. -/
def crcRounds : Nat → Half → Half
  | 0, v => v
  | n + 1, v => crcRounds n (crcRound v)

/-- `crc16_byte(c, b)` (R140). -/
def crc16Byte (c : Half) (b : Byte) : Half := crcRounds 8 (c ^^^ b.setWidth 16)

/-- `crc16_from(c0, bs)`, the left fold over the bytes in order (R141). -/
def crc16From : Half → List Byte → Half
  | c, [] => c
  | c, b :: bs => crc16From (crc16Byte c b) bs

/-- `crc16(F, n)`, over the first n bytes (R141). -/
def crc16 (f : Frame) (n : Nat) : Half := crc16From crcInit (f.toList.take n)

end Sys2Proof.Machine
end

