-- ==== Sys2Proof/Machine/Flags.lean ====
section
/-! DEFINITION. The status views: STATUS (10_state.md R29) and RUNCRC (R30). They have no storage. -/

namespace Sys2Proof.Machine

open Sys2Proof

/-- STATUS: from the top, CNT, SEQ, six zeros, ERR_ILL and OVALID, zero-extended (R29). -/
def statusWord (s : State) : Word :=
  zext32 (s.cnt ++ s.seq ++ 0b000000#6 ++ BitVec.ofBool s.errIll ++ BitVec.ofBool s.ovalid)

/-- RUNCRC (R30). -/
def runcrcWord (s : State) : Word := zext32 s.rcrc

end Sys2Proof.Machine
end

