-- ==== Sys2Proof/Machine/Ops.lean ====
section
/-! DEFINITION. The named operations over the state that the meanings and the step share: capture, completion,
clearing, the recording of the one error condition, the `rst` edge, a word returned on the read port, and taking the
next input. There is no trap entry and no trap return to model: "Trap entry does not exist", "Trap return does not
exist" (60_exceptions.md R165, R166); the block's whole error mechanism is `State.recordIllegal`. -/

namespace Sys2Proof.Machine

open Sys2Proof

/-- PUSH with CNT < 63 (40_capture.md R83). -/
def State.captureByte (b : Byte) (s : State) : State :=
  { s with
    buf := writeByte s.buf s.cnt b
    cnt := s.cnt + 1
    rcrc := crc16Byte s.rcrc b }

/-- PUSH with CNT = 63, the completion (R84): OFR receives BUF[0..62] and then b, at one edge with the rest. -/
def State.completeFrame (b : Byte) (s : State) : State :=
  { s with
    ofr := writeByte s.buf 63 b
    ocrc := crc16Byte s.rcrc b
    ovalid := true
    seq := s.seq + 1
    cnt := 0
    rcrc := crcInit
    buf := writeByte s.buf 63 b }

/-- CLEAR's writes (R81). -/
def State.clearCapture (s : State) : State := { s with cnt := 0, rcrc := crcInit }

/-- ILLEGAL_CMD is recorded: ERR_ILL <- 1, nothing else (R85; 60_exceptions.md R161, EC1). -/
def State.recordIllegal (s : State) : State := { s with errIll := true }

/-- An edge with `rst = 1` (70_reset_and_hazards.md R180). BUF, OFR and OCRC are unspecified after it: free values
(log 7), drawn anew at each such edge (log 8). -/
def State.resetEdge (s : State) : State :=
  { s with
    cnt := 0
    rcrc := crcInit
    ovalid := false
    seq := 0x00
    errIll := false
    buf := Config.resetBuf s.draws s.buf
    ofr := Config.resetOfr s.draws s.ofr
    ocrc := Config.resetOcrc s.draws s.ocrc
    draws := s.draws + 1 }

/-- The gating of R100: zero while OVALID = 0. -/
def gate (s : State) (w : Word) : Word := if s.ovalid then w else 0x00000000

/-- A read returns `w`: the host has it (log 3), and nothing of the block changes (20_memory.md R49). -/
def State.returnWord (w : Word) (s : State) : State := { s with rdata := w }

/-- The idle input: an edge with no command to give takes NOP (R80; log 2). -/
def idleInput : PortInput := .word (.command 0x000)

/-- The next input of the ports, and the state with it taken. -/
def State.takeInput (s : State) : PortInput × State :=
  match s.inputs with
  | [] => (idleInput, s)
  | i :: rest => (i, { s with inputs := rest })

/-- The host drives `w` next, before whatever it was going to drive (log 12). -/
def State.present (w : PortWord) (s : State) : State := { s with inputs := .word w :: s.inputs }

end Sys2Proof.Machine
end

