-- ==== Sys2Proof/Machine/Capture.lean ====
section
/-! DEFINITION. The capture commands (40_capture.md). -/

namespace Sys2Proof.Machine

open Sys2Proof

/-- NOP: nothing is written (R80). -/
def execNop (s : State) : Host.Outcome State Fault Refusal := .next s

/-- CLEAR (R81). -/
def execClear (s : State) : Host.Outcome State Fault Refusal := .next s.clearCapture

/-- PUSH imm8 (R82): the ordinary case below 63 (R83), else the completion (R84). -/
def execPush (imm8 : Byte) (s : State) : Host.Outcome State Fault Refusal :=
  if s.cnt < 63 then .next (s.captureByte imm8) else .next (s.completeFrame imm8)

/-- The reserved command, ILLEGAL (R85). -/
def execIllegal (s : State) : Host.Outcome State Fault Refusal := .next s.recordIllegal

end Sys2Proof.Machine
end

