-- ==== Sys2Proof/Machine/Checksum.lean ====
section
/-! DEFINITION. The checksum registers (42_checksum.md section 2). The block never compares them (R145). -/

namespace Sys2Proof.Machine

open Sys2Proof

/-- `deviceChecksum`, bytes 62 and 63 (R142). -/
def deviceChecksum (f : Frame) : Half := le16 f 62

/-- RD_DEVCRC (R142). -/
def execRdDevcrc (s : State) : Host.Outcome State Fault Refusal :=
  .next (s.returnWord (gate s (zext32 (deviceChecksum s.ofr))))

/-- RD_CRC (R143): `computedChecksum` is OCRC. -/
def execRdCrc (s : State) : Host.Outcome State Fault Refusal :=
  .next (s.returnWord (gate s (zext32 s.ocrc)))

end Sys2Proof.Machine
end

