-- ==== Sys2Proof/Machine/Binary32.lean ====
section
/-! DEFINITION. IEEE-754 binary32 as the spec uses it: the rounding of an exact rational to a pattern
(41_frame_decode.md R112), and what a pattern stands for (R113). -/

namespace Sys2Proof.Machine

open Sys2Proof

/-- The integer e with `2^e <= n/d < 2^(e+1)`, for positive n and d (R112). The difference of the two logarithms is
e or e + 1; the comparison says which. -/
def ratioLog2 (n d : Nat) : Int :=
  let e : Int := (n.log2 : Int) - (d.log2 : Int)
  if d * 2 ^ e.toNat ≤ n * 2 ^ (-e).toNat then e else e - 1

/-- `rne32(q)` of R112 for `q = num/den`, den positive: with `m = |q| * 2^(23-e)` held as the exact fraction
`n/d`, M is its floor, rounded up past one half, and at one half if M is odd. -/
def rne32 (num : Int) (den : Nat) : Word :=
  if num = 0 then 0x00000000
  else
    let e := ratioLog2 num.natAbs den
    let n := num.natAbs * 2 ^ (23 - e).toNat
    let d := den * 2 ^ (e - 23).toNat
    let floor := n / d
    let twiceRest := 2 * (n % d)
    let m := if d < twiceRest ∨ (twiceRest = d ∧ floor % 2 = 1) then floor + 1 else floor
    let (m, e) := if m = 2 ^ 24 then (2 ^ 23, e + 1) else (m, e)
    BitVec.ofBool (decide (num < 0)) ++ BitVec.ofInt 8 (e + 127) ++ BitVec.ofNat 23 (m - 2 ^ 23)

/-- The biased exponent, bits 30:23 (R113). -/
def f32Exponent (w : Word) : Nat := (w.extractLsb' 23 8).toNat

/-- The fraction, bits 22:0 (R113). -/
def f32Fraction (w : Word) : Nat := (w.extractLsb' 0 23).toNat

/-- The pattern is no infinity and no NaN. -/
abbrev F32Finite (w : Word) : Prop := f32Exponent w < 255

/-- The rational a finite pattern stands for (R113: sign in bit 31, bias 127). -/
def f32Value (w : Word) : ℚ :=
  let magnitude : ℚ :=
    if f32Exponent w = 0 then (f32Fraction w : ℚ) * 2 ^ (-149 : ℤ)
    else ((2 : ℚ) ^ 23 + f32Fraction w) * 2 ^ ((f32Exponent w : ℤ) - 150)
  if w.getLsbD 31 then -magnitude else magnitude

end Sys2Proof.Machine
end

