-- ==== Sys2Proof/Machine/IntegerFields.lean ====
section
/-! DEFINITION. The integer fields of the frame and their reads (41_frame_decode.md section 2). -/

namespace Sys2Proof.Machine

open Sys2Proof

/-- `bins[i]`, at bytes 2i and 2i+1 (R101). -/
def bin (f : Frame) (i : Nat) : Half := le16 f (2 * i)

/-- `timeOfFlight[j]`, of bin 2j+1, at byte 32+j (R102). -/
def timeOfFlight (f : Frame) (j : Nat) : Byte := frameByte f (32 + j)

/-- `tempSignal`, at bytes 40 and 41 (R104). -/
def tempSignal (f : Frame) : Half := le16 f 40

/-- `humiditySignal`, at bytes 42 and 43 (R106). -/
def humiditySignal (o : HumOrder) (f : Frame) : Half := humidityPair o f

/-- `rejectGlitch`, byte 48 (R109). -/
def rejectGlitch (f : Frame) : Byte := frameByte f 48

/-- `rejectLong`, byte 49 (R110). -/
def rejectLong (f : Frame) : Byte := frameByte f 49

/-- RD_BIN i (R101). -/
def execRdBin (i : Nat) (s : State) : Host.Outcome State Fault Refusal :=
  if binIndexOk i then .next (s.returnWord (gate s (zext32 (bin s.ofr i)))) else .refused .illFormed

/-- RD_TOF j (R102). -/
def execRdTof (j : Nat) (s : State) : Host.Outcome State Fault Refusal :=
  if tofIndexOk j then .next (s.returnWord (gate s (zext32 (timeOfFlight s.ofr j)))) else .refused .illFormed

/-- RD_TSIG (R104). -/
def execRdTsig (s : State) : Host.Outcome State Fault Refusal :=
  .next (s.returnWord (gate s (zext32 (tempSignal s.ofr))))

/-- RD_HSIG (R106). -/
def execRdHsig (s : State) : Host.Outcome State Fault Refusal :=
  .next (s.returnWord (gate s (zext32 (humiditySignal s.config.humOrder s.ofr))))

/-- RD_RGLITCH (R109). -/
def execRdRglitch (s : State) : Host.Outcome State Fault Refusal :=
  .next (s.returnWord (gate s (zext32 (rejectGlitch s.ofr))))

/-- RD_RLONG (R110). -/
def execRdRlong (s : State) : Host.Outcome State Fault Refusal :=
  .next (s.returnWord (gate s (zext32 (rejectLong s.ofr))))

end Sys2Proof.Machine
end

