-- ==== Sys2Proof/Machine/Conversions.lean ====
section
/-! DEFINITION. The two unit conversions and their reads (41_frame_decode.md section 4). The exact rational is held
over the common denominator 65535 (00_scope.md R6: T_OFFSET, T_SCALE, T_DIV, RH_SCALE, RH_DIV). -/

namespace Sys2Proof.Machine

open Sys2Proof

/-- `rne32(-45 + 175 * signal / 65535)` (R105). -/
def tempCelsius (signal : Half) : Word := rne32 (-45 * 65535 + 175 * (signal.toNat : Int)) 65535

/-- `rne32(100 * signal / 65535)` (R107). -/
def relativeHumidity (signal : Half) : Word := rne32 (100 * (signal.toNat : Int)) 65535

/-- RD_TEMPC (R105). -/
def execRdTempc (s : State) : Host.Outcome State Fault Refusal :=
  .next (s.returnWord (gate s (tempCelsius (tempSignal s.ofr))))

/-- RD_RH (R107), with the humidity signal of R106. -/
def execRdRh (s : State) : Host.Outcome State Fault Refusal :=
  .next (s.returnWord (gate s (relativeHumidity (humiditySignal s.config.humOrder s.ofr))))

end Sys2Proof.Machine
end

