-- ==== Sys2Proof/Machine/FloatFields.lean ====
section
/-! DEFINITION. The binary32 fields of the frame, passed through bit for bit (41_frame_decode.md R113), and their
reads (section 3). -/

namespace Sys2Proof.Machine

open Sys2Proof

/-- The pattern of the float at frame offset k, returned unchanged (R113). -/
def floatPattern (f : Frame) (k : Nat) : Word := le32 f k

/-- `sampleFlowRate`, bytes 36 to 39 (R103). -/
def sampleFlowRate (f : Frame) : Word := floatPattern f 36

/-- `samplingPeriod`, bytes 44 to 47 (R108). -/
def samplingPeriod (f : Frame) : Word := floatPattern f 44

/-- `pmEnv[m]`, at offset 50 + 4m: PM1.0, PM2.5 and PM10 for m = 0, 1, 2 (R111). -/
def pmEnv (f : Frame) (m : Nat) : Word := floatPattern f (50 + 4 * m)

/-- RD_FLOW (R103). -/
def execRdFlow (s : State) : Host.Outcome State Fault Refusal :=
  .next (s.returnWord (gate s (sampleFlowRate s.ofr)))

/-- RD_PERIOD (R108). -/
def execRdPeriod (s : State) : Host.Outcome State Fault Refusal :=
  .next (s.returnWord (gate s (samplingPeriod s.ofr)))

/-- RD_PM1 (R111). -/
def execRdPm1 (s : State) : Host.Outcome State Fault Refusal :=
  .next (s.returnWord (gate s (pmEnv s.ofr 0)))

/-- RD_PM25 (R111). -/
def execRdPm25 (s : State) : Host.Outcome State Fault Refusal :=
  .next (s.returnWord (gate s (pmEnv s.ofr 1)))

/-- RD_PM10 (R111). -/
def execRdPm10 (s : State) : Host.Outcome State Fault Refusal :=
  .next (s.returnWord (gate s (pmEnv s.ofr 2)))

end Sys2Proof.Machine
end

