-- ==== Sys2Proof/Machine/RawFrame.lean ====
section
/-! DEFINITION. The raw frame's words and their read (41_frame_decode.md R116). -/

namespace Sys2Proof.Machine

open Sys2Proof

/-- Raw word k, bytes 4k to 4k+3 (R116). -/
def rawWord (f : Frame) (k : Nat) : Word := le32 f (4 * k)

/-- RD_RAW k (R116). -/
def execRdRaw (k : Nat) (s : State) : Host.Outcome State Fault Refusal :=
  if rawIndexOk k then .next (s.returnWord (gate s (rawWord s.ofr k))) else .refused .illFormed

end Sys2Proof.Machine
end

