-- ==== Sys2Proof/Machine/ReservedReads.lean ====
section
/-! DEFINITION. The reads of the reserved addresses 0x23 to 0x2F (30_encoding.md R64), one definition for each row of
the opcode table: "A model must not assume that a later revision of the block leaves them zero", so each can be
mended without the others (log 15). -/

namespace Sys2Proof.Machine

open Sys2Proof

/-- A reserved address reads as zero, gated by nothing, and sets no error (R64). -/
def readReserved (s : State) : Host.Outcome State Fault Refusal := .next (s.returnWord 0x00000000)

/-- RESERVED_RD at 0x23 (R64). -/
def execReservedRd23 (s : State) : Host.Outcome State Fault Refusal := readReserved s

/-- RESERVED_RD at 0x24 (R64). -/
def execReservedRd24 (s : State) : Host.Outcome State Fault Refusal := readReserved s

/-- RESERVED_RD at 0x25 (R64). -/
def execReservedRd25 (s : State) : Host.Outcome State Fault Refusal := readReserved s

/-- RESERVED_RD at 0x26 (R64). -/
def execReservedRd26 (s : State) : Host.Outcome State Fault Refusal := readReserved s

/-- RESERVED_RD at 0x27 (R64). -/
def execReservedRd27 (s : State) : Host.Outcome State Fault Refusal := readReserved s

/-- RESERVED_RD at 0x28 (R64). -/
def execReservedRd28 (s : State) : Host.Outcome State Fault Refusal := readReserved s

/-- RESERVED_RD at 0x29 (R64). -/
def execReservedRd29 (s : State) : Host.Outcome State Fault Refusal := readReserved s

/-- RESERVED_RD at 0x2A (R64). -/
def execReservedRd2A (s : State) : Host.Outcome State Fault Refusal := readReserved s

/-- RESERVED_RD at 0x2B (R64). -/
def execReservedRd2B (s : State) : Host.Outcome State Fault Refusal := readReserved s

/-- RESERVED_RD at 0x2C (R64). -/
def execReservedRd2C (s : State) : Host.Outcome State Fault Refusal := readReserved s

/-- RESERVED_RD at 0x2D (R64). -/
def execReservedRd2D (s : State) : Host.Outcome State Fault Refusal := readReserved s

/-- RESERVED_RD at 0x2E (R64). -/
def execReservedRd2E (s : State) : Host.Outcome State Fault Refusal := readReserved s

/-- RESERVED_RD at 0x2F (R64). -/
def execReservedRd2F (s : State) : Host.Outcome State Fault Refusal := readReserved s

end Sys2Proof.Machine
end

