-- ==== Sys2Proof/Machine/StatusReads.lean ====
section
/-! DEFINITION. The reads that are not gated: RD_STATUS (10_state.md R29) and RD_RUNCRC (R30). -/

namespace Sys2Proof.Machine

open Sys2Proof

/-- RD_STATUS, readable whatever OVALID holds (R29). -/
def execRdStatus (s : State) : Host.Outcome State Fault Refusal := .next (s.returnWord (statusWord s))

/-- RD_RUNCRC, readable whatever OVALID holds (R30). -/
def execRdRuncrc (s : State) : Host.Outcome State Fault Refusal := .next (s.returnWord (runcrcWord s))

end Sys2Proof.Machine
end

