-- ==== Sys2Proof/Machine/Dispatch.lean ====
section
/-! DEFINITION. One arm per instruction, each a call of its meaning. -/

namespace Sys2Proof.Machine

open Sys2Proof

/-- What an instruction does. -/
def exec (i : Instr) (s : State) : Host.Outcome State Fault Refusal :=
  match i with
  | .nop => Sys2Proof.Machine.execNop s
  | .clear => Sys2Proof.Machine.execClear s
  | .push imm8 => Sys2Proof.Machine.execPush imm8 s
  | .illegal => Sys2Proof.Machine.execIllegal s
  | .rdBin bin => Sys2Proof.Machine.execRdBin bin s
  | .rdTof j => Sys2Proof.Machine.execRdTof j s
  | .rdFlow => Sys2Proof.Machine.execRdFlow s
  | .rdTsig => Sys2Proof.Machine.execRdTsig s
  | .rdTempc => Sys2Proof.Machine.execRdTempc s
  | .rdHsig => Sys2Proof.Machine.execRdHsig s
  | .rdRh => Sys2Proof.Machine.execRdRh s
  | .rdPeriod => Sys2Proof.Machine.execRdPeriod s
  | .rdRglitch => Sys2Proof.Machine.execRdRglitch s
  | .rdRlong => Sys2Proof.Machine.execRdRlong s
  | .rdPm1 => Sys2Proof.Machine.execRdPm1 s
  | .rdPm25 => Sys2Proof.Machine.execRdPm25 s
  | .rdPm10 => Sys2Proof.Machine.execRdPm10 s
  | .rdDevcrc => Sys2Proof.Machine.execRdDevcrc s
  | .rdCrc => Sys2Proof.Machine.execRdCrc s
  | .rdStatus => Sys2Proof.Machine.execRdStatus s
  | .rdRuncrc => Sys2Proof.Machine.execRdRuncrc s
  | .reservedRd23 => Sys2Proof.Machine.execReservedRd23 s
  | .reservedRd24 => Sys2Proof.Machine.execReservedRd24 s
  | .reservedRd25 => Sys2Proof.Machine.execReservedRd25 s
  | .reservedRd26 => Sys2Proof.Machine.execReservedRd26 s
  | .reservedRd27 => Sys2Proof.Machine.execReservedRd27 s
  | .reservedRd28 => Sys2Proof.Machine.execReservedRd28 s
  | .reservedRd29 => Sys2Proof.Machine.execReservedRd29 s
  | .reservedRd2A => Sys2Proof.Machine.execReservedRd2A s
  | .reservedRd2B => Sys2Proof.Machine.execReservedRd2B s
  | .reservedRd2C => Sys2Proof.Machine.execReservedRd2C s
  | .reservedRd2D => Sys2Proof.Machine.execReservedRd2D s
  | .reservedRd2E => Sys2Proof.Machine.execReservedRd2E s
  | .reservedRd2F => Sys2Proof.Machine.execReservedRd2F s
  | .rdRaw k => Sys2Proof.Machine.execRdRaw k s

end Sys2Proof.Machine
end

