-- ==== Sys2Proof/Machine/Step.lean ====
section
/-! DEFINITION. One step: the next input of the ports is taken, and is a `rst` edge (70_reset_and_hazards.md R180), a
command at an edge with `rst = 0`, or a read (60_exceptions.md R164, 70_reset_and_hazards.md R185, R186). -/

namespace Sys2Proof.Machine

open Sys2Proof

/-- The step of the block. -/
def step (s : State) : Host.Outcome State Fault Refusal :=
  match s.takeInput with
  | (.rst _, s') => .next s'.resetEdge
  | (.word w, s') => exec (decode w) s'

/-- `s` with the opcode-table word on the ports next (log 12). A word no port carries leaves `s` as it is: there is
nothing to drive. -/
def State.withFetchWord (s : State) (nbits w : Nat) : State :=
  match portWordOfTable nbits w with
  | .ok p => s.present p
  | .error _ => s

end Sys2Proof.Machine
end

