-- ==== Sys2Proof/Machine/Assembler.lean ====
section
/-! DEFINITION. The assembly lines of 30_encoding.md R67 as what the host drives: one command, a `rst` edge, a read,
and the pseudo-instructions with their expansions. The text form itself is not parsed. -/

namespace Sys2Proof.Machine

open Sys2Proof

/-- A command or a read: its word. -/
def asm (i : Instr) : PortInput := .word (encode i)

/-- `RESET`: one edge with `rst = 1`; op and din are don't-care. -/
def asmReset (cmd : CmdWord) : PortInput := .rst cmd

/-- `PUSHS b0, ..., bn-1`. -/
def asmPushs (bs : List Byte) : List PortInput := bs.map fun b => asm (.push b)

/-- `FRAME b0, ..., b63`: CLEAR, then PUSHS. -/
def asmFrame (f : Frame) : List PortInput := asm .clear :: asmPushs f.toList

/-- `IDLE n`: n copies of NOP. -/
def asmIdle (n : Nat) : List PortInput := List.replicate n (asm .nop)

end Sys2Proof.Machine
end

