-- ==== Sys2Proof/Machine/ReadPort.lean ====
section
/-! DEFINITION. The read port as one function of the state, `READ(a)` (41_frame_decode.md R100): `rdata = READ(raddr)`
at all times (70_reset_and_hazards.md R186). And the HistogramFrame, the decoder's whole result (00_scope.md R12). The
meanings of the read forms do not call `readPort`: that they agree with it is a statement. -/

namespace Sys2Proof.Machine

open Sys2Proof

/-- `READ(a)`, line by line as R100 writes it. -/
def readPort (a : ReadAddr) (s : State) : Word :=
  if a = 0x21 then statusWord s
  else if a = 0x22 then runcrcWord s
  else if 0x23 ≤ a ∧ a ≤ 0x2F then 0x00000000
  else if s.ovalid = false then 0x00000000
  else if a ≤ 0x0F then zext32 (bin s.ofr (a.extractLsb' 0 4).toNat)
  else if 0x10 ≤ a ∧ a ≤ 0x13 then zext32 (timeOfFlight s.ofr (a.extractLsb' 0 2).toNat)
  else if a = 0x14 then sampleFlowRate s.ofr
  else if a = 0x15 then zext32 (tempSignal s.ofr)
  else if a = 0x16 then tempCelsius (tempSignal s.ofr)
  else if a = 0x17 then zext32 (humiditySignal s.config.humOrder s.ofr)
  else if a = 0x18 then relativeHumidity (humiditySignal s.config.humOrder s.ofr)
  else if a = 0x19 then samplingPeriod s.ofr
  else if a = 0x1A then zext32 (rejectGlitch s.ofr)
  else if a = 0x1B then zext32 (rejectLong s.ofr)
  else if 0x1C ≤ a ∧ a ≤ 0x1E then pmEnv s.ofr (a.toNat - 0x1C)
  else if a = 0x1F then zext32 (deviceChecksum s.ofr)
  else if a = 0x20 then zext32 s.ocrc
  else rawWord s.ofr (a.extractLsb' 0 4).toNat

/-- The addresses whose word is zero while OVALID = 0: column "gated" of 30_encoding.md R63. -/
def gatedAddr (a : ReadAddr) : Bool := decide (a ≤ 0x20) || decide (0x30 ≤ a)

/-- The decoded result of one frame (00_scope.md R12); binary32 fields are patterns (R10). -/
structure HistogramFrame where
  bins : Vector Half 16
  timeOfFlight : Vector Byte 4
  sampleFlowRate : Word
  tempSignal : Half
  tempCelsius : Word
  humiditySignal : Half
  relativeHumidity : Word
  samplingPeriod : Word
  rejectGlitch : Byte
  rejectLong : Byte
  pmEnv : Vector Word 3
  deviceChecksum : Half
  computedChecksum : Half
  rawFrame : Frame
deriving DecidableEq, Repr

/-- The frame a state exposes: "fully constructed or not constructed at all" (10_state.md R26). -/
def histogramFrame (s : State) : Option HistogramFrame :=
  if s.ovalid then
    some
      { bins := Vector.ofFn fun i => bin s.ofr i
        timeOfFlight := Vector.ofFn fun j => timeOfFlight s.ofr j
        sampleFlowRate := sampleFlowRate s.ofr
        tempSignal := tempSignal s.ofr
        tempCelsius := tempCelsius (tempSignal s.ofr)
        humiditySignal := humiditySignal s.config.humOrder s.ofr
        relativeHumidity := relativeHumidity (humiditySignal s.config.humOrder s.ofr)
        samplingPeriod := samplingPeriod s.ofr
        rejectGlitch := rejectGlitch s.ofr
        rejectLong := rejectLong s.ofr
        pmEnv := Vector.ofFn fun m => pmEnv s.ofr m
        deviceChecksum := deviceChecksum s.ofr
        computedChecksum := s.ocrc
        rawFrame := s.ofr }
  else none

end Sys2Proof.Machine
end

