-- ==== Sys2Proof/Safety.lean ====
section
/-! DEFINITION. The terms claims are stated in: the block's two invariants, what the next input does, what a schedule
of inputs pushes, and what it is for two states to show the same. -/

namespace Sys2Proof

/-! ## One input -/

/-- It is an edge with `rst = 1`. -/
def PortInput.isRst : PortInput → Bool
  | .rst _ => true
  | .word _ => false

/-- The byte it pushes, if it is a PUSH. -/
def PortInput.pushed : PortInput → Option Byte
  | .word (.command cmd) => if cmd.extractLsb' 8 2 = 0b10#2 then some (cmd.extractLsb' 0 8) else none
  | .word (.read _) => none
  | .rst _ => none

/-- It is a command with this `op`. -/
def PortInput.hasOp (op : BitVec 2) : PortInput → Bool
  | .word (.command cmd) => cmd.extractLsb' 8 2 == op
  | .word (.read _) => false
  | .rst _ => false

end Sys2Proof

namespace Sys2Proof.Machine

open Sys2Proof

/-- No illegal command has been taken since the last reset (10_state.md R28; 93 I6: the premise of a safe run). -/
abbrev State.Safe (s : State) : Prop := s.errIll = false

/-- The capture invariant: RCRC is the CRC of BUF[0..CNT-1] (10_state.md R33). -/
abbrev State.CaptureInv (s : State) : Prop := s.rcrc = crc16From crcInit (s.buf.toList.take s.cnt.toNat)

/-- The output invariant: with OVALID = 1, OCRC is the CRC of all 64 bytes of OFR (R34). -/
abbrev State.OutputInv (s : State) : Prop := s.ovalid = true → s.ocrc = crc16 s.ofr 64

/-- Both invariants. -/
structure State.Inv (s : State) : Prop where
  capture : s.CaptureInv
  output : s.OutputInv

/-! ## The next input -/

/-- The input the next step takes. -/
def State.nextInput (s : State) : PortInput := s.takeInput.1

/-- The next step completes a frame (40_capture.md R84). -/
def State.completesNext (s : State) : Bool := s.nextInput.pushed.isSome && s.cnt == 63

/-- The read form `i` completes, returns `w`, or zero while OVALID = 0, and changes nothing else (the template of
41_frame_decode.md: "State written: none"). -/
abbrev ReadsGated (i : Instr) (s : State) (w : Word) : Prop :=
  exec i s = .next { s with rdata := if s.ovalid then w else 0x00000000 }

/-! ## Schedules of inputs -/

/-- The bytes a schedule pushes, in order. -/
def pushedBytes (l : List PortInput) : List Byte := l.filterMap PortInput.pushed

/-- No input of the schedule is a CLEAR or an edge with `rst = 1`: reads, NOPs, ILLEGALs and PUSHes only. -/
def keepsCapture (l : List PortInput) : Bool := l.all fun i => !i.isRst && !i.hasOp 0b01

/-! ## What a state shows -/

/-- Two states of one configuration show the same: equal but for the elements no rule can observe (10_state.md R21,
R24, R25) and the model's own count of drawings. Those elements are the bytes of BUF from index CNT on, and OFR and
OCRC while OVALID = 0. -/
structure SameShown (s t : State) : Prop where
  config : s.config = t.config
  cnt : s.cnt = t.cnt
  rcrc : s.rcrc = t.rcrc
  ovalid : s.ovalid = t.ovalid
  seq : s.seq = t.seq
  errIll : s.errIll = t.errIll
  rdata : s.rdata = t.rdata
  inputs : s.inputs = t.inputs
  buf : ∀ i < s.cnt.toNat, frameByte s.buf i = frameByte t.buf i
  ofr : s.ovalid = true → s.ofr = t.ofr
  ocrc : s.ovalid = true → s.ocrc = t.ocrc

end Sys2Proof.Machine
end

