-- ==== Sys2Proof/Certificates/Slice0/Obligations.lean ====
section
/-! DEFINITION. The statements for the provers. "log <n>" is notes/assumptions/<n>.md. -/

open Sys2Proof Sys2Proof.Machine

/-! ## Encoding -/

/-- R61: every 10-bit word selects exactly one row, by `op` and by match and mask; `din` is PUSH's byte and is ignored
by the rest. -/
def Obligations.EveryCommandWordSelectsOneRow : Prop :=
  (∀ din : Byte,
    decode (.command (0b00#2 ++ din)) = .nop ∧ decode (.command (0b01#2 ++ din)) = .clear ∧
    decode (.command (0b10#2 ++ din)) = .push din ∧ decode (.command (0b11#2 ++ din)) = .illegal) ∧
  (∀ cmd : CmdWord,
    (cmd &&& 0x300 = 0x000 → decode (.command cmd) = .nop) ∧
    (cmd &&& 0x300 = 0x100 → decode (.command cmd) = .clear) ∧
    (cmd &&& 0x300 = 0x200 → decode (.command cmd) = .push (cmd.extractLsb' 0 8)) ∧
    (cmd &&& 0x300 = 0x300 → decode (.command cmd) = .illegal) ∧
    (cmd &&& 0x300 = 0x000 ∨ cmd &&& 0x300 = 0x100 ∨ cmd &&& 0x300 = 0x200 ∨ cmd &&& 0x300 = 0x300))

/-- Which read form each address selects (the table of 30_encoding.md section 3). -/
def Obligations.EveryReadAddressSelectsItsForm : Prop :=
  (∀ i : BitVec 4, decode (.read (0b00#2 ++ i)) = .rdBin i.toNat) ∧
  (∀ j : BitVec 2, decode (.read (0b0100#4 ++ j)) = .rdTof j.toNat) ∧
  (∀ k : BitVec 4, decode (.read (0b11#2 ++ k)) = .rdRaw k.toNat) ∧
  decode (.read 0x14) = .rdFlow ∧ decode (.read 0x15) = .rdTsig ∧ decode (.read 0x16) = .rdTempc ∧
  decode (.read 0x17) = .rdHsig ∧ decode (.read 0x18) = .rdRh ∧ decode (.read 0x19) = .rdPeriod ∧
  decode (.read 0x1A) = .rdRglitch ∧ decode (.read 0x1B) = .rdRlong ∧ decode (.read 0x1C) = .rdPm1 ∧
  decode (.read 0x1D) = .rdPm25 ∧ decode (.read 0x1E) = .rdPm10 ∧ decode (.read 0x1F) = .rdDevcrc ∧
  decode (.read 0x20) = .rdCrc ∧ decode (.read 0x21) = .rdStatus ∧ decode (.read 0x22) = .rdRuncrc ∧
  decode (.read 0x23) = .reservedRd23 ∧ decode (.read 0x24) = .reservedRd24 ∧
  decode (.read 0x25) = .reservedRd25 ∧ decode (.read 0x26) = .reservedRd26 ∧
  decode (.read 0x27) = .reservedRd27 ∧ decode (.read 0x28) = .reservedRd28 ∧
  decode (.read 0x29) = .reservedRd29 ∧ decode (.read 0x2A) = .reservedRd2A ∧
  decode (.read 0x2B) = .reservedRd2B ∧ decode (.read 0x2C) = .reservedRd2C ∧
  decode (.read 0x2D) = .reservedRd2D ∧ decode (.read 0x2E) = .reservedRd2E ∧
  decode (.read 0x2F) = .reservedRd2F

/-- R62: where each operand comes from, and what PUSH does with its byte. -/
def Obligations.OperandsAreSlicesOfTheWord : Prop :=
  (∀ b : Byte, decode (.command (0b10#2 ++ b)) = .push b) ∧
  (∀ (s : State) (b : Byte), ∃ t, exec (.push b) s = .next t ∧
    frameByte t.buf s.cnt.toNat = b ∧ (if s.cnt < 63 then t.rcrc else t.ocrc) = crc16Byte s.rcrc b) ∧
  (∀ d d' : Byte,
    decode (.command (0b00#2 ++ d)) = decode (.command (0b00#2 ++ d')) ∧
    decode (.command (0b01#2 ++ d)) = decode (.command (0b01#2 ++ d')) ∧
    decode (.command (0b11#2 ++ d)) = decode (.command (0b11#2 ++ d'))) ∧
  (∀ a : ReadAddr,
    (a.extractLsb' 4 2 = 0b00#2 → decode (.read a) = .rdBin (a.extractLsb' 0 4).toNat) ∧
    (a.extractLsb' 2 4 = 0b0100#4 → decode (.read a) = .rdTof (a.extractLsb' 0 2).toNat) ∧
    (a.extractLsb' 4 2 = 0b11#2 → decode (.read a) = .rdRaw (a.extractLsb' 0 4).toNat))

/-- Decoding an encoded well-formed instruction gives it back, every index and every byte of PUSH included. -/
def Obligations.DecodingAnEncodedInstructionGivesItBack : Prop :=
  ∀ i : Instr, i.WellFormed → decode (encode i) = i

/-- Encoding a decoded word gives it back: every address whole, and of a command word all that is not don't-care
(log 26: the encoder writes 0 for the ignored `din`). -/
def Obligations.EncodingADecodedWordGivesItBack : Prop :=
  (∀ a : ReadAddr, encode (decode (.read a)) = .read a) ∧
  (∀ cmd : CmdWord, encode (decode (.command cmd)) =
    .command (if cmd.extractLsb' 8 2 = 0b10#2 then cmd else cmd &&& 0x300))

/-- Words written out bit by bit from 30_encoding.md, and vectors of 95_test_vectors.md. -/
def Obligations.SampleWordsDecode : Prop :=
  decode (.command 0b0011111111) = .nop ∧ decode (.command 0b0110100101) = .clear ∧
  decode (.command 0b1010101011) = .push 0xAB ∧ decode (.command 0b1101110111) = .illegal ∧
  decode (.read 0b001111) = .rdBin 15 ∧ decode (.read 0b010011) = .rdTof 3 ∧ decode (.read 0b010110) = .rdTempc ∧
  decode (.read 0b011101) = .rdPm25 ∧ decode (.read 0b011111) = .rdDevcrc ∧ decode (.read 0b100001) = .rdStatus ∧
  decode (.read 0b101111) = .reservedRd2F ∧ decode (.read 0b111111) = .rdRaw 15

/-! ## The step -/

/-- A step takes the next input: it runs the decoded word, or takes the `rst` edge whatever stands on `op` and `din`,
or, with nothing driven, is NOP. The schedule is the model's form of the inputs (log 1, log 2). -/
def Obligations.StepRunsThePresentedInput : Prop :=
  (∀ (s : State) (w : PortWord) (rest : List PortInput), s.inputs = .word w :: rest →
    step s = exec (decode w) { s with inputs := rest }) ∧
  (∀ (s : State) (c : CmdWord) (rest : List PortInput), s.inputs = .rst c :: rest →
    step s = .next (State.resetEdge { s with inputs := rest })) ∧
  (∀ s : State, s.inputs = [] → step s = exec .nop s)

/-- A word of the opcode table, placed by `withFetchWord`, is what the very next step runs (the model's interface,
log 11 and log 12). -/
def Obligations.PlacedTableWordRunsNext : Prop :=
  ∀ (s : State) (nbits w : Nat) (i : Instr), decodeTableWord nbits w = some i →
    step (s.withFetchWord nbits w) = exec i s

/-- R185: a command (or a read) is taken at every edge and completes, the rest of the schedule waiting in order. -/
def Obligations.EveryEdgeTakesOneCommandInOrder : Prop :=
  ∀ (s : State) (w : PortWord) (rest : List PortInput), s.inputs = .word w :: rest →
    ∃ t, step s = .next t ∧ exec (decode w) { s with inputs := rest } = .next t ∧ t.inputs = rest

/-- The block never traps and never stops: from every state a step gives a next state (60_exceptions.md section 1). -/
def Obligations.EveryStepGivesANextState : Prop :=
  ∀ s : State, ∃ t, step s = .next t

/-! ## Capture commands -/

/-- R80: NOP writes nothing, whatever `din`; an edge with no command to give takes it; any number of NOPs leaves the
state as it was. -/
def Obligations.NopWritesNothing : Prop :=
  (∀ din : Byte, decode (.command (0b00#2 ++ din)) = .nop) ∧
  (∀ s : State, exec .nop s = .next s) ∧
  (∀ s : State, s.inputs = [] → step s = .next s) ∧
  (∀ (n : Nat) (s : State) (rest : List PortInput), s.inputs = asmIdle n ++ rest →
    Sys2Proof.core.run n s = .next { s with inputs := rest })

/-- R81: CLEAR writes CNT and RCRC alone, whatever `din`; the last completed frame stays readable; where CNT is 0 (and
RCRC the CRC of no byte) it changes nothing. -/
def Obligations.ClearRestartsTheCapture : Prop :=
  (∀ din : Byte, decode (.command (0b01#2 ++ din)) = .clear) ∧
  (∀ s : State, exec .clear s = .next { s with cnt := 0, rcrc := 0xFFFF }) ∧
  (∀ (s : State) (a : ReadAddr), gatedAddr a = true →
    readPort a { s with cnt := 0, rcrc := 0xFFFF } = readPort a s) ∧
  (∀ s : State, s.CaptureInv → s.cnt = 0 → exec .clear s = .next s)

/-- R82: PUSH in both cases, every element of the state named, and its example. -/
def Obligations.PushFollowsItsPseudocode : Prop :=
  (∀ b : Byte, decode (.command (0b10#2 ++ b)) = .push b) ∧
  (∀ (s : State) (b : Byte), s.cnt < 63 → ∃ t, exec (.push b) s = .next t ∧
    frameByte t.buf s.cnt.toNat = b ∧ (∀ j, j ≠ s.cnt.toNat → frameByte t.buf j = frameByte s.buf j) ∧
    t = { s with buf := t.buf, cnt := s.cnt + 1, rcrc := crc16Byte s.rcrc b }) ∧
  (∀ (s : State) (b : Byte), ¬ s.cnt < 63 → ∃ t, exec (.push b) s = .next t ∧
    (∀ j < 63, frameByte t.ofr j = frameByte s.buf j) ∧ frameByte t.ofr 63 = b ∧
    frameByte t.buf 63 = b ∧ (∀ j, j ≠ 63 → frameByte t.buf j = frameByte s.buf j) ∧
    t = { s with ofr := t.ofr, ocrc := crc16Byte s.rcrc b, ovalid := true, seq := s.seq + 1, cnt := 0,
                 rcrc := 0xFFFF, buf := t.buf }) ∧
  (∃ t, exec (.push 0x00) State.reset = .next t ∧ frameByte t.buf 0 = 0x00 ∧ t.cnt = 1 ∧ t.rcrc = 0x40BF)

/-- R83: below index 63, the byte is written, CNT counts it and RCRC takes it in; the output frame and SEQ do not
change and no partial frame is exposed; the bytes pushed so far are extended by the new one. -/
def Obligations.PushBelowTheLastByteExtendsTheCapture : Prop :=
  ∀ (s : State) (b : Byte), s.cnt < 63 → ∃ t, exec (.push b) s = .next t ∧
    frameByte t.buf s.cnt.toNat = b ∧ t.cnt.toNat = s.cnt.toNat + 1 ∧ t.rcrc = crc16Byte s.rcrc b ∧
    t.ofr = s.ofr ∧ t.ocrc = s.ocrc ∧ t.ovalid = s.ovalid ∧ t.seq = s.seq ∧
    histogramFrame t = histogramFrame s ∧ (∀ a, gatedAddr a = true → readPort a t = readPort a s) ∧
    (∀ pushed : List Byte, s.buf.toList.take s.cnt.toNat = pushed →
      t.buf.toList.take t.cnt.toNat = pushed ++ [b])

/-- R84: the 64th PUSH. OFR, OCRC, OVALID, SEQ, CNT, RCRC and BUF[63] change at one step; OCRC is the CRC of all 64
bytes where the capture invariant holds; and every gated read is that of the new output frame alone. -/
def Obligations.PushOfTheLastByteCompletesTheFrame : Prop :=
  ∀ (s : State) (b : Byte), s.cnt = 63 → ∃ t, exec (.push b) s = .next t ∧
    (∀ j < 63, frameByte t.ofr j = frameByte s.buf j) ∧ frameByte t.ofr 63 = b ∧
    t.ocrc = crc16Byte s.rcrc b ∧ (s.CaptureInv → t.ocrc = crc16 t.ofr 64) ∧
    t.ovalid = true ∧ t.seq.toNat = (s.seq.toNat + 1) % 256 ∧ t.cnt = 0 ∧ t.rcrc = 0xFFFF ∧
    frameByte t.buf 63 = b ∧
    (∀ u : State, u.config = t.config → u.ovalid = true → u.ofr = t.ofr → u.ocrc = t.ocrc →
      ∀ a, gatedAddr a = true → readPort a t = readPort a u)

/-- R85: the reserved command sets ERR_ILL and nothing else, whatever `din`; set, it stays set until a reset; from
reset STATUS is then 0x00000002. -/
def Obligations.ReservedCommandSetsErrIllOnly : Prop :=
  (∀ din : Byte, decode (.command (0b11#2 ++ din)) = .illegal) ∧
  (∀ s : State, exec .illegal s = .next { s with errIll := true }) ∧
  (∀ s : State, s.errIll = true → exec .illegal s = .next s) ∧
  (∀ s t : State, s.errIll = true → s.nextInput.isRst = false → step s = .next t → t.errIll = true) ∧
  (∃ t, exec .illegal State.reset = .next t ∧ statusWord t = 0x00000002)

/-- A frame read as a host does it (40_capture.md R88; FRAME of R67, with reads, NOPs and even ILLEGALs between): from
ANY state, CLEAR and then a schedule that pushes 64 bytes leaves exactly those bytes as the output frame, with their
CRC, one more frame counted, and the capture ready for the next. -/
def Obligations.CaptureDeliversTheFrame : Prop :=
  ∀ (s : State) (f : Frame) (l rest : List PortInput),
    keepsCapture l = true → pushedBytes l = f.toList → s.inputs = asm .clear :: (l ++ rest) →
    ∃ t, Sys2Proof.core.run (l.length + 1) s = .next t ∧
      t.ofr = f ∧ t.ocrc = crc16 f 64 ∧ t.ovalid = true ∧ t.seq = s.seq + 1 ∧
      t.cnt = 0 ∧ t.rcrc = 0xFFFF ∧ t.config = s.config ∧ t.inputs = rest

/-- The host's check of R188: with no reset and at most 255 * 64 steps between, equal SEQ means that the output frame
is the same one. (R188's derived figure, fewer than 256 * 64 edges, is too large when the first read falls inside a
capture: log 23.) -/
def Obligations.EqualSeqMeansTheSameFrame : Prop :=
  ∀ (n : Nat) (s t : State), n ≤ 255 * 64 → (∀ i ∈ s.inputs.take n, i.isRst = false) →
    Sys2Proof.core.run n s = .next t → t.seq = s.seq →
    t.ofr = s.ofr ∧ t.ocrc = s.ocrc ∧ t.ovalid = s.ovalid

/-- R187: a read before the edge of the completing PUSH sees the previous output frame, one after it the new. -/
def Obligations.CompletionShowsAfterItsEdge : Prop :=
  ∀ (s : State) (b : Byte) (a : ReadAddr) (rest : List PortInput), s.cnt = 63 →
    s.inputs = .word (.read a) :: asm (.push b) :: .word (.read a) :: rest →
    ∃ before after, Sys2Proof.core.run 1 s = .next before ∧ before.rdata = readPort a s ∧
      Sys2Proof.core.run 3 s = .next after ∧
      ∃ done, exec (.push b) s = .next done ∧ after.rdata = readPort a done

/-! ## What each register does at a step -/

/-- R22: CNT. It counts a PUSH, and is 0 after the completing PUSH, CLEAR or reset; STATUS[21:16]; 0 at reset. -/
def Obligations.CntCountsTheBytesOfTheCapture : Prop :=
  (∀ s t : State, step s = .next t →
    t.cnt.toNat =
      if s.nextInput.isRst || s.nextInput.hasOp 0b01 || s.completesNext then 0
      else if s.nextInput.hasOp 0b10 then s.cnt.toNat + 1
      else s.cnt.toNat) ∧
  (∀ (s : State) (b : Byte), s.nextInput.pushed = some b → ∀ t, step s = .next t →
    frameByte t.buf s.cnt.toNat = b) ∧
  (∀ s : State, (statusWord s).extractLsb' 16 6 = s.cnt) ∧ State.reset.cnt = 0

/-- R23: RCRC. PUSH takes the byte in; the completing PUSH, CLEAR and reset set it to 0xFFFF; it stays the CRC of
BUF[0..CNT-1]; address 0x22; 0xFFFF at reset. -/
def Obligations.RcrcIsTheRunningCrc : Prop :=
  (∀ s t : State, step s = .next t →
    t.rcrc =
      if s.nextInput.isRst || s.nextInput.hasOp 0b01 || s.completesNext then 0xFFFF
      else match s.nextInput.pushed with
        | some b => crc16Byte s.rcrc b
        | none => s.rcrc) ∧
  (∀ s t : State, s.CaptureInv → step s = .next t → t.CaptureInv) ∧
  (∀ s : State, readPort 0x22 s = s.rcrc.setWidth 32) ∧ State.reset.rcrc = 0xFFFF

/-- OFR and OCRC (10_state.md section 3): away from reset only the completing PUSH writes them, all at once; while
OVALID = 0 every gated address reads zero; and every gated read is a function of the configuration, OVALID, OFR and
OCRC. -/
def Obligations.OutputFrameIsWrittenOnlyWhole : Prop :=
  (∀ s t : State, step s = .next t → s.nextInput.isRst = false → s.completesNext = false →
    t.ofr = s.ofr ∧ t.ocrc = s.ocrc) ∧
  (∀ (s t : State) (b : Byte), step s = .next t → s.nextInput.pushed = some b → s.cnt = 63 →
    (∀ j < 63, frameByte t.ofr j = frameByte s.buf j) ∧ frameByte t.ofr 63 = b ∧ t.ocrc = crc16Byte s.rcrc b) ∧
  (∀ (s : State) (a : ReadAddr), s.ovalid = false → gatedAddr a = true → readPort a s = 0x00000000) ∧
  (∀ (s u : State) (a : ReadAddr), gatedAddr a = true → u.config = s.config → u.ovalid = s.ovalid →
    u.ofr = s.ofr → u.ocrc = s.ocrc → readPort a u = readPort a s)

/-- R26: OVALID. Only reset clears it, only the completing PUSH sets it; STATUS[0]; 0 at reset; while it is 1 the
output frame stays whole until it is replaced whole; without it no frame is exposed. -/
def Obligations.OvalidMeansACompleteFrame : Prop :=
  (∀ s t : State, step s = .next t →
    t.ovalid = (!s.nextInput.isRst && (s.ovalid || s.completesNext))) ∧
  (∀ s t : State, step s = .next t → t.ovalid = true →
    (s.ovalid = true ∧ t.ofr = s.ofr ∧ t.ocrc = s.ocrc) ∨
    ((∀ j < 63, frameByte t.ofr j = frameByte s.buf j) ∧
      ∃ b, s.nextInput.pushed = some b ∧ s.cnt = 63 ∧ frameByte t.ofr 63 = b ∧ t.ocrc = crc16Byte s.rcrc b)) ∧
  (∀ s : State, (statusWord s).getLsbD 0 = s.ovalid) ∧
  (∀ s : State, (histogramFrame s).isSome = s.ovalid) ∧ State.reset.ovalid = false

/-- R27: SEQ counts completions modulo 256 and is 0 after reset; STATUS[15:8]. -/
def Obligations.SeqCountsCompletions : Prop :=
  (∀ s t : State, step s = .next t →
    t.seq.toNat =
      if s.nextInput.isRst then 0 else if s.completesNext then (s.seq.toNat + 1) % 256 else s.seq.toNat) ∧
  (∀ s : State, (statusWord s).extractLsb' 8 8 = s.seq) ∧ State.reset.seq = 0x00

/-- R28: ERR_ILL. The reserved command sets it, only reset clears it; STATUS[1]; 0 at reset. -/
def Obligations.ErrIllIsStickyUntilReset : Prop :=
  (∀ s t : State, step s = .next t →
    t.errIll = (!s.nextInput.isRst && (s.errIll || s.nextInput.hasOp 0b11))) ∧
  (∀ s : State, (statusWord s).getLsbD 1 = s.errIll) ∧ State.reset.errIll = false

/-- BUF (10_state.md section 2): away from reset only PUSH writes it, one byte, at index CNT; no read shows it. -/
def Obligations.BufIsWrittenByPushOnly : Prop :=
  (∀ s t : State, step s = .next t → s.nextInput.isRst = false → s.nextInput.pushed = none → t.buf = s.buf) ∧
  (∀ (s t : State) (b : Byte), step s = .next t → s.nextInput.pushed = some b →
    frameByte t.buf s.cnt.toNat = b ∧ ∀ j, j ≠ s.cnt.toNat → frameByte t.buf j = frameByte s.buf j) ∧
  (∀ (s : State) (f : Frame) (a : ReadAddr), readPort a { s with buf := f } = readPort a s)

/-- HUM_ORDER is fixed for the life of the instance and reaches RD_HSIG and RD_RH alone (00_scope.md section 4,
30_encoding.md section 5; carried in the state by log 9). -/
def Obligations.HumOrderNeverChangesAndReachesTwoReads : Prop :=
  (∀ s t : State, step s = .next t → t.config = s.config) ∧
  (∀ (s : State) (c : Config) (a : ReadAddr), a ≠ 0x17 → a ≠ 0x18 →
    readPort a { s with config := c } = readPort a s)

/-- R29: STATUS, its fields, its reserved bits, its read whatever OVALID holds, and its fields' values at reset. -/
def Obligations.StatusShowsItsFields : Prop :=
  decode (.read 0x21) = .rdStatus ∧
  (∀ s : State, exec .rdStatus s = .next { s with rdata := statusWord s }) ∧
  (∀ s : State,
    (statusWord s).extractLsb' 0 1 = BitVec.ofBool s.ovalid ∧
    (statusWord s).extractLsb' 1 1 = BitVec.ofBool s.errIll ∧
    (statusWord s).extractLsb' 2 6 = 0 ∧ (statusWord s).extractLsb' 8 8 = s.seq ∧
    (statusWord s).extractLsb' 16 6 = s.cnt ∧ (statusWord s).extractLsb' 22 10 = 0) ∧
  State.reset.ovalid = false ∧ State.reset.errIll = false ∧ State.reset.seq = 0x00 ∧ State.reset.cnt = 0

/-- R30: RUNCRC, its read whatever OVALID holds. -/
def Obligations.RuncrcShowsTheRunningCrc : Prop :=
  decode (.read 0x22) = .rdRuncrc ∧
  ∀ s : State, exec .rdRuncrc s = .next { s with rdata := s.rcrc.setWidth 32 }

/-! ## Invariants and reset -/

/-- From every state that meets the capture and the output invariant (10_state.md section 6), a step keeps both. -/
def Obligations.EveryStepKeepsTheInvariants : Prop :=
  ∀ s t : State, s.Inv → step s = .next t → t.Inv

/-- The state right after reset meets both invariants. -/
def Obligations.ResetStateMeetsTheInvariants : Prop := State.reset.Inv

/-- R180: an edge with `rst = 1`, whatever stands on `op` and `din`. Nothing is said of BUF, OFR and OCRC, which the
rule leaves unspecified. -/
def Obligations.ResetEdgeSetsTheStatedValues : Prop :=
  ∀ (s : State) (c : CmdWord) (rest : List PortInput), s.inputs = .rst c :: rest → ∃ t, step s = .next t ∧
    t.cnt = 0 ∧ t.rcrc = 0xFFFF ∧ t.ovalid = false ∧ t.seq = 0x00 ∧ t.errIll = false ∧
    t.config = s.config ∧ t.inputs = rest ∧
    readPort 0x21 t = 0x00000000 ∧ readPort 0x22 t = 0x0000FFFF ∧
    (∀ a, gatedAddr a = true → readPort a t = 0x00000000) ∧
    ∀ c' : CmdWord, step { s with inputs := .rst c' :: rest } = .next t

/-- The state right after reset holds the values 70_reset_and_hazards.md section 1 gives, and reads as it says. -/
def Obligations.ResetStateHoldsTheStatedValues : Prop :=
  State.reset.cnt = 0 ∧ State.reset.rcrc = 0xFFFF ∧ State.reset.ovalid = false ∧ State.reset.seq = 0x00 ∧
  State.reset.errIll = false ∧ readPort 0x21 State.reset = 0x00000000 ∧ readPort 0x22 State.reset = 0x0000FFFF ∧
  ∀ a, gatedAddr a = true → readPort a State.reset = 0x00000000

/-- The unspecified contents are never observable (10_state.md section 2 and 3, 41_frame_decode.md section 1): states
that show the same go on to states that show the same, every word read included, whatever BUF holds from index CNT on
and whatever OFR and OCRC hold while OVALID = 0. -/
def Obligations.UnspecifiedContentsAreNeverObserved : Prop :=
  ∀ s s' t t' : State, SameShown s s' → step s = .next t → step s' = .next t' → SameShown t t'

/-! ## The read port -/

/-- R100: the read of every address returns READ of it, and that alone changes. -/
def Obligations.EveryReadReturnsREAD : Prop :=
  ∀ (a : ReadAddr) (s : State), exec (decode (.read a)) s = .next { s with rdata := readPort a s }

/-- R49: reading an address any number of times changes nothing and returns the same word. -/
def Obligations.ReadsHaveNoSideEffects : Prop :=
  ∀ (n : Nat) (a : ReadAddr) (s : State) (rest : List PortInput),
    s.inputs = List.replicate (n + 1) (.word (.read a)) ++ rest →
    Sys2Proof.core.run (n + 1) s = .next { s with rdata := readPort a s, inputs := rest }

/-- R64: the thirteen reserved addresses read zero, gated by nothing, and set no error: nothing else changes. -/
def Obligations.ReservedAddressesReadZero : Prop :=
  (∀ (a : ReadAddr) (s : State), 0x23 ≤ a → a ≤ 0x2F →
    exec (decode (.read a)) s = .next { s with rdata := 0x00000000 }) ∧
  (∀ s : State,
    exec .reservedRd23 s = .next { s with rdata := 0 } ∧ exec .reservedRd24 s = .next { s with rdata := 0 } ∧
    exec .reservedRd25 s = .next { s with rdata := 0 } ∧ exec .reservedRd26 s = .next { s with rdata := 0 } ∧
    exec .reservedRd27 s = .next { s with rdata := 0 } ∧ exec .reservedRd28 s = .next { s with rdata := 0 } ∧
    exec .reservedRd29 s = .next { s with rdata := 0 } ∧ exec .reservedRd2A s = .next { s with rdata := 0 } ∧
    exec .reservedRd2B s = .next { s with rdata := 0 } ∧ exec .reservedRd2C s = .next { s with rdata := 0 } ∧
    exec .reservedRd2D s = .next { s with rdata := 0 } ∧ exec .reservedRd2E s = .next { s with rdata := 0 } ∧
    exec .reservedRd2F s = .next { s with rdata := 0 })

/-- R101: RD_BIN i. -/
def Obligations.RdBinReturnsTheBin : Prop :=
  (∀ i : BitVec 4, decode (.read (0b00#2 ++ i)) = .rdBin i.toNat) ∧
  (∀ (s : State) (i : Nat), i < 16 →
    ReadsGated (.rdBin i) s ((frameByte s.ofr (2 * i + 1) ++ frameByte s.ofr (2 * i)).setWidth 32)) ∧
  (∀ (s : State) (i : Nat), i < 16 → s.ovalid = true → frameByte s.ofr (2 * i) = 0x34 →
    frameByte s.ofr (2 * i + 1) = 0x12 → exec (.rdBin i) s = .next { s with rdata := 0x00001234 })

/-- R102: RD_TOF j. -/
def Obligations.RdTofReturnsTheTimeOfFlight : Prop :=
  (∀ j : BitVec 2, decode (.read (0b0100#4 ++ j)) = .rdTof j.toNat) ∧
  (∀ (s : State) (j : Nat), j < 4 → ReadsGated (.rdTof j) s ((frameByte s.ofr (32 + j)).setWidth 32))

/-- An index no address carries is refused by name and nothing is run (the model's choice, log 10). -/
def Obligations.IllFormedIndexIsRefused : Prop :=
  ∀ s : State,
    (∀ i, 16 ≤ i → exec (.rdBin i) s = .refused .illFormed) ∧
    (∀ j, 4 ≤ j → exec (.rdTof j) s = .refused .illFormed) ∧
    (∀ k, 16 ≤ k → exec (.rdRaw k) s = .refused .illFormed)

/-- R104: RD_TSIG, whatever HUM_ORDER is. -/
def Obligations.RdTsigReturnsTheTemperatureSignal : Prop :=
  decode (.read 0x15) = .rdTsig ∧
  ∀ s : State, ReadsGated .rdTsig s ((frameByte s.ofr 41 ++ frameByte s.ofr 40).setWidth 32)

/-- R106: RD_HSIG under both orders. -/
def Obligations.RdHsigFollowsHumOrder : Prop :=
  decode (.read 0x17) = .rdHsig ∧
  (∀ s : State, s.config.humOrder = .le →
    ReadsGated .rdHsig s ((frameByte s.ofr 43 ++ frameByte s.ofr 42).setWidth 32)) ∧
  (∀ s : State, s.config.humOrder = .ref →
    ReadsGated .rdHsig s ((frameByte s.ofr 42 ++ frameByte s.ofr 43).setWidth 32)) ∧
  (∀ (f : Frame), frameByte f 42 = frameByte f 43 → humiditySignal .le f = humiditySignal .ref f)

/-- R109 and R110: the reject counters. -/
def Obligations.RejectCountersReturnTheirBytes : Prop :=
  decode (.read 0x1A) = .rdRglitch ∧ decode (.read 0x1B) = .rdRlong ∧
  (∀ s : State, ReadsGated .rdRglitch s ((frameByte s.ofr 48).setWidth 32)) ∧
  (∀ s : State, ReadsGated .rdRlong s ((frameByte s.ofr 49).setWidth 32))

/-- R103, R108 and R111: the binary32 fields are the bytes of the frame bit for bit, whatever the pattern. -/
def Obligations.FloatFieldsPassThrough : Prop :=
  decode (.read 0x14) = .rdFlow ∧ decode (.read 0x19) = .rdPeriod ∧ decode (.read 0x1C) = .rdPm1 ∧
  decode (.read 0x1D) = .rdPm25 ∧ decode (.read 0x1E) = .rdPm10 ∧
  ∀ s : State,
    ReadsGated .rdFlow s
      (frameByte s.ofr 39 ++ frameByte s.ofr 38 ++ frameByte s.ofr 37 ++ frameByte s.ofr 36) ∧
    ReadsGated .rdPeriod s
      (frameByte s.ofr 47 ++ frameByte s.ofr 46 ++ frameByte s.ofr 45 ++ frameByte s.ofr 44) ∧
    ReadsGated .rdPm1 s
      (frameByte s.ofr 53 ++ frameByte s.ofr 52 ++ frameByte s.ofr 51 ++ frameByte s.ofr 50) ∧
    ReadsGated .rdPm25 s
      (frameByte s.ofr 57 ++ frameByte s.ofr 56 ++ frameByte s.ofr 55 ++ frameByte s.ofr 54) ∧
    ReadsGated .rdPm10 s
      (frameByte s.ofr 61 ++ frameByte s.ofr 60 ++ frameByte s.ofr 59 ++ frameByte s.ofr 58)

/-- R105: RD_TEMPC is rne32 of the exact rational, and is finite and never zero. -/
def Obligations.RdTempcConvertsTheSignal : Prop :=
  decode (.read 0x16) = .rdTempc ∧
  (∀ s : State, ReadsGated .rdTempc s
    (rne32 (-45 * 65535 + 175 * ((frameByte s.ofr 41 ++ frameByte s.ofr 40).toNat : Int)) 65535)) ∧
  (∀ signal : Half, ((-45 * 65535 + 175 * (signal.toNat : Int) : Int) : ℚ) / 65535 =
    -45 + 175 * (signal.toNat : ℚ) / 65535) ∧
  (∀ signal : Half, F32Finite (tempCelsius signal) ∧ f32Value (tempCelsius signal) ≠ 0)

/-- R107: RD_RH is rne32 of the exact rational, with the humidity signal of HUM_ORDER. -/
def Obligations.RdRhConvertsTheSignal : Prop :=
  decode (.read 0x18) = .rdRh ∧
  (∀ s : State, s.config.humOrder = .le → ReadsGated .rdRh s
    (rne32 (100 * ((frameByte s.ofr 43 ++ frameByte s.ofr 42).toNat : Int)) 65535)) ∧
  (∀ s : State, s.config.humOrder = .ref → ReadsGated .rdRh s
    (rne32 (100 * ((frameByte s.ofr 42 ++ frameByte s.ofr 43).toNat : Int)) 65535)) ∧
  (∀ signal : Half, ((100 * (signal.toNat : Int) : Int) : ℚ) / 65535 = 100 * (signal.toNat : ℚ) / 65535)

/-- R116: RD_RAW k; the sixteen words hold the whole frame. -/
def Obligations.RdRawReturnsTheFrame : Prop :=
  (∀ k : BitVec 4, decode (.read (0b11#2 ++ k)) = .rdRaw k.toNat) ∧
  (∀ (s : State) (k : Nat), k < 16 → ReadsGated (.rdRaw k) s
    (frameByte s.ofr (4 * k + 3) ++ frameByte s.ofr (4 * k + 2) ++ frameByte s.ofr (4 * k + 1) ++
      frameByte s.ofr (4 * k))) ∧
  (∀ f g : Frame, (∀ k < 16, rawWord f k = rawWord g k) → f = g)

/-- R142 and R143: the two checksums, side by side. -/
def Obligations.ChecksumReadsReturnBothChecksums : Prop :=
  decode (.read 0x1F) = .rdDevcrc ∧ decode (.read 0x20) = .rdCrc ∧
  (∀ s : State, ReadsGated .rdDevcrc s ((frameByte s.ofr 63 ++ frameByte s.ofr 62).setWidth 32)) ∧
  (∀ s : State, ReadsGated .rdCrc s (s.ocrc.setWidth 32)) ∧
  (∀ s : State, s.Inv → s.ovalid = true →
    exec .rdCrc s = .next { s with rdata := (crc16 s.ofr 64).setWidth 32 }) ∧
  crc16 (Vector.replicate 64 0x00) 64 = 0x2F40

/-- R145: no bit of STATUS and no capture depends on the checksums, so a mismatching frame is completed like any
other. -/
def Obligations.ChecksumsAreNeverCompared : Prop :=
  (∀ (s : State) (f : Frame) (c : Half), statusWord { s with ofr := f, ocrc := c } = statusWord s) ∧
  (∀ (s : State) (b : Byte), s.cnt = 63 → ∃ t, exec (.push b) s = .next t ∧
    t.ovalid = true ∧ t.errIll = s.errIll ∧ (∀ j < 63, frameByte t.ofr j = frameByte s.buf j) ∧
    frameByte t.ofr 63 = b ∧
    readPort 0x1F t = (b ++ frameByte s.buf 62).setWidth 32 ∧ readPort 0x20 t = (crc16Byte s.rcrc b).setWidth 32)

/-! ## Field assembly and conversions -/

/-- R114: 16-bit assembly is `(MSB << 8) | LSB` in 16 bits, unsigned, for every 16-bit field. -/
def Obligations.SixteenBitFieldsAreAssembledMsbFirst : Prop :=
  (∀ msb lsb : Byte, (assemble16 msb lsb).toNat = 256 * msb.toNat + lsb.toNat) ∧
  (∀ (f : Frame) (i : Nat), bin f i = assemble16 (frameByte f (2 * i + 1)) (frameByte f (2 * i))) ∧
  (∀ f : Frame, tempSignal f = assemble16 (frameByte f 41) (frameByte f 40)) ∧
  (∀ f : Frame, humiditySignal .le f = assemble16 (frameByte f 43) (frameByte f 42)) ∧
  (∀ f : Frame, humiditySignal .ref f = assemble16 (frameByte f 42) (frameByte f 43)) ∧
  (∀ f : Frame, deviceChecksum f = assemble16 (frameByte f 63) (frameByte f 62))

/-- The mixed-width view (20_memory.md section 2): a 16-bit field at an even offset is a half of a raw word. -/
def Obligations.SixteenBitFieldsAreHalvesOfRawWords : Prop :=
  ∀ (f : Frame) (i : Nat), i < 32 →
    le16 f (2 * i) = if i % 2 = 0 then (rawWord f (i / 2)).extractLsb' 0 16
      else (rawWord f ((i - 1) / 2)).extractLsb' 16 16

/-- R112: rne32 gives the nearest binary32 value, ties to even, and +0 for 0. The range is that of the normal numbers
up to the greatest finite one. -/
def Obligations.RneIsNearestTiesToEven : Prop :=
  (∀ den : Nat, rne32 0 den = 0x00000000) ∧
  (∀ (num : Int) (den : Nat) (q : ℚ), 0 < den → q = (num : ℚ) / den →
    (2 : ℚ) ^ (-126 : ℤ) ≤ |q| → |q| ≤ (2 : ℚ) ^ (128 : ℤ) - (2 : ℚ) ^ (104 : ℤ) →
    F32Finite (rne32 num den) ∧
    (∀ w : Word, F32Finite w → |f32Value (rne32 num den) - q| ≤ |f32Value w - q|) ∧
    (∀ w : Word, F32Finite w → f32Value w ≠ f32Value (rne32 num den) →
      |f32Value (rne32 num den) - q| = |f32Value w - q| → (rne32 num den).getLsbD 0 = false))

/-- Both conversions at the six exact points and at the vectors of 95_test_vectors.md section 2.5. -/
def Obligations.ConversionsAtTheVectors : Prop :=
  tempCelsius 0x0000 = 0xC2340000 ∧ tempCelsius 0x3333 = 0xC1200000 ∧ tempCelsius 0x6666 = 0x41C80000 ∧
  tempCelsius 0x9999 = 0x42700000 ∧ tempCelsius 0xCCCC = 0x42BE0000 ∧ tempCelsius 0xFFFF = 0x43020000 ∧
  tempCelsius 0x0001 = 0xC233FD44 ∧ tempCelsius 0x4000 = 0xBF9FEA20 ∧ tempCelsius 0x41D4 = 0x39C800C8 ∧
  tempCelsius 0x41D5 = 0x3B4800C8 ∧ tempCelsius 0x8000 = 0x422A015E ∧ tempCelsius 0xFFFE = 0x4301FF51 ∧
  relativeHumidity 0x0000 = 0x00000000 ∧ relativeHumidity 0x3333 = 0x41A00000 ∧
  relativeHumidity 0x6666 = 0x42200000 ∧ relativeHumidity 0x9999 = 0x42700000 ∧
  relativeHumidity 0xCCCC = 0x42A00000 ∧ relativeHumidity 0xFFFF = 0x42C80000 ∧
  relativeHumidity 0x0001 = 0x3AC800C8 ∧ relativeHumidity 0x41D4 = 0x41CDB74E ∧
  relativeHumidity 0x8000 = 0x424800C8 ∧ relativeHumidity 0xFFFE = 0x42C7FF38

/-- Both conversions are non-decreasing in the signal and stay in their ranges (41_frame_decode.md section 4). -/
def Obligations.ConversionsAreMonotoneAndInRange : Prop :=
  (∀ a b : Half, a ≤ b → f32Value (tempCelsius a) ≤ f32Value (tempCelsius b)) ∧
  (∀ a b : Half, a ≤ b → f32Value (relativeHumidity a) ≤ f32Value (relativeHumidity b)) ∧
  (∀ a : Half, -45 ≤ f32Value (tempCelsius a) ∧ f32Value (tempCelsius a) ≤ 130) ∧
  (∀ a : Half, 0 ≤ f32Value (relativeHumidity a) ∧ f32Value (relativeHumidity a) ≤ 100)

/-! ## The CRC -/

/-- R140: the byte is exclusive-ored in, then eight rounds. -/
def Obligations.CrcByteIsEightReflectedRounds : Prop :=
  ∀ (c : Half) (b : Byte), crc16Byte c b =
    (fun v : Half => if v.getLsbD 0 then (v >>> 1) ^^^ 0xA001 else v >>> 1)^[8] (c ^^^ b.setWidth 16)

/-- R141: the fold over the bytes in order, and the frame checksum over all 64. -/
def Obligations.CrcIsTheFoldOverTheBytes : Prop :=
  (∀ c : Half, crc16From c [] = c) ∧
  (∀ (c : Half) (b : Byte) (bs : List Byte), crc16From c (b :: bs) = crc16From (crc16Byte c b) bs) ∧
  (∀ (f : Frame) (n : Nat), n ≤ 64 → crc16 f n = crc16From 0xFFFF ((List.range n).map (frameByte f)))

/-- Check values of 42_checksum.md and 95_test_vectors.md section 2.1. -/
def Obligations.CrcCheckValues : Prop :=
  crc16Byte 0xFFFF 0x00 = 0x40BF ∧ crc16Byte 0xFFFF 0x01 = 0x807E ∧ crc16Byte 0xFFFF 0x80 = 0xE0BE ∧
  crc16Byte 0xFFFF 0xFF = 0x00FF ∧ crc16Byte 0xFFFF 0xA5 = 0x3B7F ∧ crc16Byte 0x0000 0x00 = 0x0000 ∧
  crc16Byte 0x0000 0x01 = 0xC0C1 ∧ crc16Byte 0x0000 0x80 = 0xA001 ∧ crc16Byte 0x0000 0xFF = 0x4040 ∧
  crc16Byte 0x40BF 0x00 = 0xB001 ∧ crc16Byte 0x1234 0x56 = 0xE993 ∧ crc16Byte 0xA001 0x01 = 0x00A0 ∧
  crc16From 0xFFFF [0x31, 0x32, 0x33, 0x34, 0x35, 0x36, 0x37, 0x38, 0x39] = 0x4B37 ∧
  crc16From 0x0000 [0x31, 0x32, 0x33, 0x34, 0x35, 0x36, 0x37, 0x38, 0x39] = 0xBB3D ∧
  crc16 (Vector.replicate 64 0x00) 64 = 0x2F40 ∧ crc16 (Vector.replicate 64 0xFF) 64 = 0xBF01 ∧
  crc16 (Vector.ofFn fun i => BitVec.ofNat 8 i.val) 64 = 0x08D9

/-- The residue (42_checksum.md section 3): a frame whose last two bytes carry, low byte first, the CRC of the 62 before
them has CRC 0 over all 64, and so the two checksums agree only if that CRC is 0. -/
def Obligations.FrameCarryingItsCrcHasResidueZero : Prop :=
  ∀ f : Frame, deviceChecksum f = crc16 f 62 →
    crc16 f 64 = 0x0000 ∧ (crc16 f 64 = deviceChecksum f ↔ crc16 f 62 = 0x0000)

/-- What the verifier is for: a frame that differs in exactly one byte has another checksum. -/
def Obligations.OneChangedByteChangesTheChecksum : Prop :=
  ∀ (f : Frame) (i : BitVec 6) (b : Byte), b ≠ frameByte f i.toNat → crc16 (writeByte f i b) 64 ≠ crc16 f 64
end

