-- ==== Sys2Proof/Laws/Crc.lean ====
section
/-! SUPPORT. The CRC fold over joined byte strings. -/

namespace Sys2Proof.Machine

open Sys2Proof

@[simp] theorem crc16From_nil (c : Half) : crc16From c [] = c := rfl

@[simp] theorem crc16From_cons (c : Half) (b : Byte) (bs : List Byte) :
    crc16From c (b :: bs) = crc16From (crc16Byte c b) bs := rfl

/-- The fold over a joined string goes on from the fold over its first part. -/
theorem crc16From_append (c : Half) (xs ys : List Byte) :
    crc16From c (xs ++ ys) = crc16From (crc16From c xs) ys := by
  induction xs generalizing c with
  | nil => rfl
  | cons x xs ih => exact ih _

/-- One more byte. -/
theorem crc16From_snoc (c : Half) (xs : List Byte) (b : Byte) :
    crc16From c (xs ++ [b]) = crc16Byte (crc16From c xs) b := by
  rw [crc16From_append]; rfl

end Sys2Proof.Machine
end

