-- ==== Sys2Proof/Laws/Decode.lean ====
section
/-! SUPPORT. What the decoder answers. -/

namespace Sys2Proof

/-- `op` selects the command (30_encoding.md R61). -/
theorem decodeCommand_cases (cmd : CmdWord) :
    (cmd.extractLsb' 8 2 = 0b00#2 ∧ decodeCommand cmd = .nop) ∨
    (cmd.extractLsb' 8 2 = 0b01#2 ∧ decodeCommand cmd = .clear) ∨
    (cmd.extractLsb' 8 2 = 0b10#2 ∧ decodeCommand cmd = .push (cmd.extractLsb' 0 8)) ∨
    (cmd.extractLsb' 8 2 = 0b11#2 ∧ decodeCommand cmd = .illegal) := by
  have total : ∀ op : BitVec 2, op = 0b00#2 ∨ op = 0b01#2 ∨ op = 0b10#2 ∨ op = 0b11#2 := by decide
  rcases total (cmd.extractLsb' 8 2) with h | h | h | h <;> simp [decodeCommand, h]

/-- An address decodes to a read form, whose indices fit. -/
theorem decodeRead_wellFormed (a : ReadAddr) : (decodeRead a).WellFormed := by
  revert a; decide

/-- Every word on the ports decodes to a well-formed instruction. -/
theorem decode_wellFormed (w : PortWord) : (decode w).WellFormed := by
  cases w with
  | command cmd =>
    rcases decodeCommand_cases cmd with ⟨_, h⟩ | ⟨_, h⟩ | ⟨_, h⟩ | ⟨_, h⟩ <;>
      simp [decode, h, Instr.WellFormed, Instr.wellFormed]
  | read a => exact decodeRead_wellFormed a

end Sys2Proof
end

