-- ==== Sys2Proof/Laws/State.lean ====
section
/-! SUPPORT. One lemma for each field of State under each named update of Machine/Ops.lean. -/

namespace Sys2Proof.Machine

open Sys2Proof

section

/-! `State.captureByte` -/

@[simp] theorem State.captureByte_config (b : Byte) (s : State) : (s.captureByte b).config = s.config := rfl
@[simp] theorem State.captureByte_buf (b : Byte) (s : State) : (s.captureByte b).buf = writeByte s.buf s.cnt b := rfl
@[simp] theorem State.captureByte_cnt (b : Byte) (s : State) : (s.captureByte b).cnt = s.cnt + 1 := rfl
@[simp] theorem State.captureByte_rcrc (b : Byte) (s : State) : (s.captureByte b).rcrc = crc16Byte s.rcrc b := rfl
@[simp] theorem State.captureByte_ofr (b : Byte) (s : State) : (s.captureByte b).ofr = s.ofr := rfl
@[simp] theorem State.captureByte_ocrc (b : Byte) (s : State) : (s.captureByte b).ocrc = s.ocrc := rfl
@[simp] theorem State.captureByte_ovalid (b : Byte) (s : State) : (s.captureByte b).ovalid = s.ovalid := rfl
@[simp] theorem State.captureByte_seq (b : Byte) (s : State) : (s.captureByte b).seq = s.seq := rfl
@[simp] theorem State.captureByte_errIll (b : Byte) (s : State) : (s.captureByte b).errIll = s.errIll := rfl
@[simp] theorem State.captureByte_rdata (b : Byte) (s : State) : (s.captureByte b).rdata = s.rdata := rfl
@[simp] theorem State.captureByte_inputs (b : Byte) (s : State) : (s.captureByte b).inputs = s.inputs := rfl
@[simp] theorem State.captureByte_draws (b : Byte) (s : State) : (s.captureByte b).draws = s.draws := rfl

/-! `State.completeFrame` -/

@[simp] theorem State.completeFrame_config (b : Byte) (s : State) : (s.completeFrame b).config = s.config := rfl
@[simp] theorem State.completeFrame_buf (b : Byte) (s : State) : (s.completeFrame b).buf = writeByte s.buf 63 b := rfl
@[simp] theorem State.completeFrame_cnt (b : Byte) (s : State) : (s.completeFrame b).cnt = 0 := rfl
@[simp] theorem State.completeFrame_rcrc (b : Byte) (s : State) : (s.completeFrame b).rcrc = crcInit := rfl
@[simp] theorem State.completeFrame_ofr (b : Byte) (s : State) : (s.completeFrame b).ofr = writeByte s.buf 63 b := rfl
@[simp] theorem State.completeFrame_ocrc (b : Byte) (s : State) : (s.completeFrame b).ocrc = crc16Byte s.rcrc b := rfl
@[simp] theorem State.completeFrame_ovalid (b : Byte) (s : State) : (s.completeFrame b).ovalid = true := rfl
@[simp] theorem State.completeFrame_seq (b : Byte) (s : State) : (s.completeFrame b).seq = s.seq + 1 := rfl
@[simp] theorem State.completeFrame_errIll (b : Byte) (s : State) : (s.completeFrame b).errIll = s.errIll := rfl
@[simp] theorem State.completeFrame_rdata (b : Byte) (s : State) : (s.completeFrame b).rdata = s.rdata := rfl
@[simp] theorem State.completeFrame_inputs (b : Byte) (s : State) : (s.completeFrame b).inputs = s.inputs := rfl
@[simp] theorem State.completeFrame_draws (b : Byte) (s : State) : (s.completeFrame b).draws = s.draws := rfl

/-! `State.clearCapture` -/

@[simp] theorem State.clearCapture_config (s : State) : (s.clearCapture).config = s.config := rfl
@[simp] theorem State.clearCapture_buf (s : State) : (s.clearCapture).buf = s.buf := rfl
@[simp] theorem State.clearCapture_cnt (s : State) : (s.clearCapture).cnt = 0 := rfl
@[simp] theorem State.clearCapture_rcrc (s : State) : (s.clearCapture).rcrc = crcInit := rfl
@[simp] theorem State.clearCapture_ofr (s : State) : (s.clearCapture).ofr = s.ofr := rfl
@[simp] theorem State.clearCapture_ocrc (s : State) : (s.clearCapture).ocrc = s.ocrc := rfl
@[simp] theorem State.clearCapture_ovalid (s : State) : (s.clearCapture).ovalid = s.ovalid := rfl
@[simp] theorem State.clearCapture_seq (s : State) : (s.clearCapture).seq = s.seq := rfl
@[simp] theorem State.clearCapture_errIll (s : State) : (s.clearCapture).errIll = s.errIll := rfl
@[simp] theorem State.clearCapture_rdata (s : State) : (s.clearCapture).rdata = s.rdata := rfl
@[simp] theorem State.clearCapture_inputs (s : State) : (s.clearCapture).inputs = s.inputs := rfl
@[simp] theorem State.clearCapture_draws (s : State) : (s.clearCapture).draws = s.draws := rfl

/-! `State.recordIllegal` -/

@[simp] theorem State.recordIllegal_config (s : State) : (s.recordIllegal).config = s.config := rfl
@[simp] theorem State.recordIllegal_buf (s : State) : (s.recordIllegal).buf = s.buf := rfl
@[simp] theorem State.recordIllegal_cnt (s : State) : (s.recordIllegal).cnt = s.cnt := rfl
@[simp] theorem State.recordIllegal_rcrc (s : State) : (s.recordIllegal).rcrc = s.rcrc := rfl
@[simp] theorem State.recordIllegal_ofr (s : State) : (s.recordIllegal).ofr = s.ofr := rfl
@[simp] theorem State.recordIllegal_ocrc (s : State) : (s.recordIllegal).ocrc = s.ocrc := rfl
@[simp] theorem State.recordIllegal_ovalid (s : State) : (s.recordIllegal).ovalid = s.ovalid := rfl
@[simp] theorem State.recordIllegal_seq (s : State) : (s.recordIllegal).seq = s.seq := rfl
@[simp] theorem State.recordIllegal_errIll (s : State) : (s.recordIllegal).errIll = true := rfl
@[simp] theorem State.recordIllegal_rdata (s : State) : (s.recordIllegal).rdata = s.rdata := rfl
@[simp] theorem State.recordIllegal_inputs (s : State) : (s.recordIllegal).inputs = s.inputs := rfl
@[simp] theorem State.recordIllegal_draws (s : State) : (s.recordIllegal).draws = s.draws := rfl

/-! `State.resetEdge` -/

@[simp] theorem State.resetEdge_config (s : State) : (s.resetEdge).config = s.config := rfl
@[simp] theorem State.resetEdge_buf (s : State) : (s.resetEdge).buf = Config.resetBuf s.draws s.buf := rfl
@[simp] theorem State.resetEdge_cnt (s : State) : (s.resetEdge).cnt = 0 := rfl
@[simp] theorem State.resetEdge_rcrc (s : State) : (s.resetEdge).rcrc = crcInit := rfl
@[simp] theorem State.resetEdge_ofr (s : State) : (s.resetEdge).ofr = Config.resetOfr s.draws s.ofr := rfl
@[simp] theorem State.resetEdge_ocrc (s : State) : (s.resetEdge).ocrc = Config.resetOcrc s.draws s.ocrc := rfl
@[simp] theorem State.resetEdge_ovalid (s : State) : (s.resetEdge).ovalid = false := rfl
@[simp] theorem State.resetEdge_seq (s : State) : (s.resetEdge).seq = 0x00 := rfl
@[simp] theorem State.resetEdge_errIll (s : State) : (s.resetEdge).errIll = false := rfl
@[simp] theorem State.resetEdge_rdata (s : State) : (s.resetEdge).rdata = s.rdata := rfl
@[simp] theorem State.resetEdge_inputs (s : State) : (s.resetEdge).inputs = s.inputs := rfl
@[simp] theorem State.resetEdge_draws (s : State) : (s.resetEdge).draws = s.draws + 1 := rfl

/-! `State.returnWord` -/

@[simp] theorem State.returnWord_config (w : Word) (s : State) : (s.returnWord w).config = s.config := rfl
@[simp] theorem State.returnWord_buf (w : Word) (s : State) : (s.returnWord w).buf = s.buf := rfl
@[simp] theorem State.returnWord_cnt (w : Word) (s : State) : (s.returnWord w).cnt = s.cnt := rfl
@[simp] theorem State.returnWord_rcrc (w : Word) (s : State) : (s.returnWord w).rcrc = s.rcrc := rfl
@[simp] theorem State.returnWord_ofr (w : Word) (s : State) : (s.returnWord w).ofr = s.ofr := rfl
@[simp] theorem State.returnWord_ocrc (w : Word) (s : State) : (s.returnWord w).ocrc = s.ocrc := rfl
@[simp] theorem State.returnWord_ovalid (w : Word) (s : State) : (s.returnWord w).ovalid = s.ovalid := rfl
@[simp] theorem State.returnWord_seq (w : Word) (s : State) : (s.returnWord w).seq = s.seq := rfl
@[simp] theorem State.returnWord_errIll (w : Word) (s : State) : (s.returnWord w).errIll = s.errIll := rfl
@[simp] theorem State.returnWord_rdata (w : Word) (s : State) : (s.returnWord w).rdata = w := rfl
@[simp] theorem State.returnWord_inputs (w : Word) (s : State) : (s.returnWord w).inputs = s.inputs := rfl
@[simp] theorem State.returnWord_draws (w : Word) (s : State) : (s.returnWord w).draws = s.draws := rfl

/-! `State.present` -/

@[simp] theorem State.present_config (w : PortWord) (s : State) : (s.present w).config = s.config := rfl
@[simp] theorem State.present_buf (w : PortWord) (s : State) : (s.present w).buf = s.buf := rfl
@[simp] theorem State.present_cnt (w : PortWord) (s : State) : (s.present w).cnt = s.cnt := rfl
@[simp] theorem State.present_rcrc (w : PortWord) (s : State) : (s.present w).rcrc = s.rcrc := rfl
@[simp] theorem State.present_ofr (w : PortWord) (s : State) : (s.present w).ofr = s.ofr := rfl
@[simp] theorem State.present_ocrc (w : PortWord) (s : State) : (s.present w).ocrc = s.ocrc := rfl
@[simp] theorem State.present_ovalid (w : PortWord) (s : State) : (s.present w).ovalid = s.ovalid := rfl
@[simp] theorem State.present_seq (w : PortWord) (s : State) : (s.present w).seq = s.seq := rfl
@[simp] theorem State.present_errIll (w : PortWord) (s : State) : (s.present w).errIll = s.errIll := rfl
@[simp] theorem State.present_rdata (w : PortWord) (s : State) : (s.present w).rdata = s.rdata := rfl
@[simp] theorem State.present_inputs (w : PortWord) (s : State) : (s.present w).inputs = .word w :: s.inputs := rfl
@[simp] theorem State.present_draws (w : PortWord) (s : State) : (s.present w).draws = s.draws := rfl

end

/-! The next input taken: an empty schedule gives the idle NOP, and else the head is gone. -/

theorem State.takeInput_nil (s : State) (h : s.inputs = []) : s.takeInput = (idleInput, s) := by
  simp [State.takeInput, h]

theorem State.takeInput_cons (s : State) (i : PortInput) (rest : List PortInput) (h : s.inputs = i :: rest) :
    s.takeInput = (i, { s with inputs := rest }) := by
  simp [State.takeInput, h]

/-- Taking an input changes the schedule alone. -/
theorem State.takeInput_state (s : State) : s.takeInput.2 = { s with inputs := s.inputs.tail } := by
  cases h : s.inputs with
  | nil => simp only [State.takeInput, h, List.tail_nil]; rw [← h]
  | cons i rest => simp [State.takeInput, h]

@[simp] theorem gate_of_valid (s : State) (w : Word) (h : s.ovalid = true) : gate s w = w := by simp [gate, h]

@[simp] theorem gate_of_invalid (s : State) (w : Word) (h : s.ovalid = false) : gate s w = 0x00000000 := by
  simp [gate, h]

end Sys2Proof.Machine
end

