-- ==== Sys2Proof/Laws/Exec.lean ====
section
/-! SUPPORT. Everything an instruction and a step can do, said once. -/

namespace Sys2Proof.Machine

open Sys2Proof

/-- If an instruction gives a next state, it is NOP, CLEAR, one of the two cases of PUSH, the reserved command, or a
read, and the state is that operation's. -/
theorem exec_cases {i : Instr} {s t : State} (h : exec i s = .next t) :
    (i = .nop ∧ t = s) ∨ (i = .clear ∧ t = s.clearCapture) ∨
    (∃ b, i = .push b ∧ s.cnt < 63 ∧ t = s.captureByte b) ∨
    (∃ b, i = .push b ∧ ¬ s.cnt < 63 ∧ t = s.completeFrame b) ∨
    (i = .illegal ∧ t = s.recordIllegal) ∨ (∃ w, t = s.returnWord w) := by
  cases i with
  | nop => exact .inl ⟨rfl, by simpa [exec, execNop] using h.symm⟩
  | clear => exact .inr (.inl ⟨rfl, by simpa [exec, execClear] using h.symm⟩)
  | push b =>
    simp only [exec, execPush] at h
    split at h
    · exact .inr (.inr (.inl ⟨b, rfl, ‹_›, by simpa using h.symm⟩))
    · exact .inr (.inr (.inr (.inl ⟨b, rfl, ‹_›, by simpa using h.symm⟩)))
  | illegal => exact .inr (.inr (.inr (.inr (.inl ⟨rfl, by simpa [exec, execIllegal] using h.symm⟩))))
  | rdBin i =>
    simp only [exec, execRdBin] at h
    split at h <;> cases h
    exact .inr (.inr (.inr (.inr (.inr ⟨_, rfl⟩))))
  | rdTof j =>
    simp only [exec, execRdTof] at h
    split at h <;> cases h
    exact .inr (.inr (.inr (.inr (.inr ⟨_, rfl⟩))))
  | rdRaw k =>
    simp only [exec, execRdRaw] at h
    split at h <;> cases h
    exact .inr (.inr (.inr (.inr (.inr ⟨_, rfl⟩))))
  | _ => cases h; exact .inr (.inr (.inr (.inr (.inr ⟨_, rfl⟩))))

/-- PUSH below index 63. -/
theorem exec_push_below {s : State} (b : Byte) (h : s.cnt < 63) : exec (.push b) s = .next (s.captureByte b) :=
  if_pos h

/-- PUSH at index 63. -/
theorem exec_push_last {s : State} (b : Byte) (h : ¬ s.cnt < 63) : exec (.push b) s = .next (s.completeFrame b) :=
  if_neg h

/-- CNT is below 63 or is 63. -/
theorem cnt_not_below_iff (s : State) : ¬ s.cnt < 63 ↔ s.cnt = 63 := by
  constructor <;> intro h <;> bv_omega

/-- A well-formed instruction completes, and the inputs not yet taken wait. -/
theorem exec_wellFormed_next (i : Instr) (s : State) (h : i.WellFormed) :
    ∃ t, exec i s = .next t ∧ t.inputs = s.inputs := by
  cases i with
  | push b =>
    by_cases hc : s.cnt < 63
    · exact ⟨_, exec_push_below b hc, rfl⟩
    · exact ⟨_, exec_push_last b hc, rfl⟩
  | rdBin i => exact ⟨_, if_pos h, rfl⟩
  | rdTof j => exact ⟨_, if_pos h, rfl⟩
  | rdRaw k => exact ⟨_, if_pos h, rfl⟩
  | _ => exact ⟨_, rfl, rfl⟩

/-- The step on a `rst` edge. -/
theorem step_rst {s : State} {c : CmdWord} {rest : List PortInput} (h : s.inputs = .rst c :: rest) :
    step s = .next (State.resetEdge { s with inputs := rest }) := by
  simp [step, State.takeInput, h]

/-- If a step gives a next state, it took a `rst` edge or ran the decoded word. -/
theorem step_cases {s t : State} (h : step s = .next t) :
    (∃ c, s.takeInput.1 = .rst c ∧ t = s.takeInput.2.resetEdge) ∨
    (∃ w, s.takeInput.1 = .word w ∧ exec (decode w) s.takeInput.2 = .next t) := by
  rcases hin : s.takeInput with ⟨i, s'⟩
  cases i with
  | rst c => exact .inl ⟨c, rfl, by simpa [step, hin] using h.symm⟩
  | word w => exact .inr ⟨w, rfl, by simpa [step, hin] using h⟩

end Sys2Proof.Machine
end

