-- ==== Sys2Proof/Laws/Frame.lean ====
section
/-! SUPPORT. A byte read from a frame after a byte was written. -/

namespace Sys2Proof.Machine

open Sys2Proof

theorem frameByte_eq_getElem (f : Frame) (i : Nat) (h : i < 64) : frameByte f i = f[i] := by
  simp [frameByte, Vector.getD, h]

/-- The byte written reads back. -/
@[simp] theorem frameByte_writeByte_same (f : Frame) (i : BitVec 6) (b : Byte) :
    frameByte (writeByte f i b) i.toNat = b := by
  have h : i.toNat < 64 := i.isLt
  rw [frameByte_eq_getElem _ _ h]
  simp [writeByte]

/-- Every other byte reads as before. -/
theorem frameByte_writeByte_other (f : Frame) (i : BitVec 6) (b : Byte) (j : Nat) (h : j ≠ i.toNat) :
    frameByte (writeByte f i b) j = frameByte f j := by
  by_cases hj : j < 64
  · rw [frameByte_eq_getElem _ _ hj, frameByte_eq_getElem _ _ hj]
    simp only [writeByte]
    exact Vector.getElem_set_ne i.isLt hj (Ne.symm h)
  · simp [frameByte, Vector.getD, hj]

/-- Two frames with the same bytes are the same. -/
theorem frame_ext (f g : Frame) (h : ∀ i < 64, frameByte f i = frameByte g i) : f = g := by
  ext i hi
  have := h i hi
  rw [frameByte_eq_getElem _ _ hi, frameByte_eq_getElem _ _ hi] at this
  rw [this]

/-- The first bytes of a frame, with the next one written, are the first bytes and then it. -/
theorem take_writeByte_succ (f : Frame) (i : BitVec 6) (b : Byte) :
    (writeByte f i b).toList.take (i.toNat + 1) = f.toList.take i.toNat ++ [b] := by
  have h : i.toNat < f.toList.length := by simpa using i.isLt
  simp only [writeByte, Vector.toList_set]
  rw [List.take_add_one]
  simp [List.take_set_of_le, List.getElem?_set_self h]

/-- A frame with its last byte written is its first 63 bytes and then that byte. -/
theorem toList_writeByte_last (f : Frame) (b : Byte) : (writeByte f 63 b).toList = f.toList.take 63 ++ [b] := by
  have h := take_writeByte_succ f 63 b
  rwa [show (63 : BitVec 6).toNat + 1 = (writeByte f 63 b).toList.length by simp, List.take_length] at h

end Sys2Proof.Machine
end

