-- ==== Sys2Proof/Laws/PerInstr.lean ====
section
/-! SUPPORT. Statements about each instruction as syntax, one lemma per constructor. -/

namespace Sys2Proof.Laws.FixedBits

open Sys2Proof

/-- The encoder writes the fixed bits that the instruction's row of spec/opcode_table.json has, on the port of the
row's format. -/
def Statement (i : Instr) : Prop := i.WellFormed → i.tableRow.admits (encode i) = true

theorem nop : Statement .nop := fun _ => by decide

theorem clear : Statement .clear := fun _ => by decide

theorem push (imm8 : Byte) : Statement (.push imm8) := fun _ => by
  have h : ∀ b : Byte, ((0b10#2 ++ b : CmdWord) &&& 0x300) = 0x200 := by decide
  simpa [Instr.tableRow, encode, TableRow.admits] using h imm8

theorem illegal : Statement .illegal := fun _ => by decide

theorem rdBin (i : Nat) : Statement (.rdBin i) := fun _ => by
  have h : ∀ x : BitVec 4, ((0b00#2 ++ x : ReadAddr) &&& 0x30) = 0x00 := by decide
  simpa [Instr.tableRow, encode, TableRow.admits] using h (BitVec.ofNat 4 i)

theorem rdTof (j : Nat) : Statement (.rdTof j) := fun _ => by
  have h : ∀ x : BitVec 2, ((0b0100#4 ++ x : ReadAddr) &&& 0x3C) = 0x10 := by decide
  simpa [Instr.tableRow, encode, TableRow.admits] using h (BitVec.ofNat 2 j)

theorem rdFlow : Statement .rdFlow := fun _ => by decide

theorem rdTsig : Statement .rdTsig := fun _ => by decide

theorem rdTempc : Statement .rdTempc := fun _ => by decide

theorem rdHsig : Statement .rdHsig := fun _ => by decide

theorem rdRh : Statement .rdRh := fun _ => by decide

theorem rdPeriod : Statement .rdPeriod := fun _ => by decide

theorem rdRglitch : Statement .rdRglitch := fun _ => by decide

theorem rdRlong : Statement .rdRlong := fun _ => by decide

theorem rdPm1 : Statement .rdPm1 := fun _ => by decide

theorem rdPm25 : Statement .rdPm25 := fun _ => by decide

theorem rdPm10 : Statement .rdPm10 := fun _ => by decide

theorem rdDevcrc : Statement .rdDevcrc := fun _ => by decide

theorem rdCrc : Statement .rdCrc := fun _ => by decide

theorem rdStatus : Statement .rdStatus := fun _ => by decide

theorem rdRuncrc : Statement .rdRuncrc := fun _ => by decide

theorem reservedRd23 : Statement .reservedRd23 := fun _ => by decide

theorem reservedRd24 : Statement .reservedRd24 := fun _ => by decide

theorem reservedRd25 : Statement .reservedRd25 := fun _ => by decide

theorem reservedRd26 : Statement .reservedRd26 := fun _ => by decide

theorem reservedRd27 : Statement .reservedRd27 := fun _ => by decide

theorem reservedRd28 : Statement .reservedRd28 := fun _ => by decide

theorem reservedRd29 : Statement .reservedRd29 := fun _ => by decide

theorem reservedRd2A : Statement .reservedRd2A := fun _ => by decide

theorem reservedRd2B : Statement .reservedRd2B := fun _ => by decide

theorem reservedRd2C : Statement .reservedRd2C := fun _ => by decide

theorem reservedRd2D : Statement .reservedRd2D := fun _ => by decide

theorem reservedRd2E : Statement .reservedRd2E := fun _ => by decide

theorem reservedRd2F : Statement .reservedRd2F := fun _ => by decide

theorem rdRaw (k : Nat) : Statement (.rdRaw k) := fun _ => by
  have h : ∀ x : BitVec 4, ((0b11#2 ++ x : ReadAddr) &&& 0x30) = 0x30 := by decide
  simpa [Instr.tableRow, encode, TableRow.admits] using h (BitVec.ofNat 4 k)

end Sys2Proof.Laws.FixedBits
end

