-- ==== Sys2Proof/Laws/Run.lean ====
section
/-! SUPPORT. What one step can do, input by input, and runs taken step by step. -/

namespace Sys2Proof.Machine

open Sys2Proof

/-- Everything a step can do, by the input it takes: `i` is the input, `u` the state with it taken, `t` the next
state. -/
inductive StepCase (i : PortInput) (u t : State) : Prop
  | rst (c : CmdWord) (hi : i = .rst c) (ht : t = u.resetEdge)
  | nop (c : CmdWord) (hi : i = .word (.command c)) (hop : c.extractLsb' 8 2 = 0b00#2) (ht : t = u)
  | clear (c : CmdWord) (hi : i = .word (.command c)) (hop : c.extractLsb' 8 2 = 0b01#2) (ht : t = u.clearCapture)
  | pushBelow (c : CmdWord) (hi : i = .word (.command c)) (hop : c.extractLsb' 8 2 = 0b10#2) (hc : u.cnt < 63)
      (ht : t = u.captureByte (c.extractLsb' 0 8))
  | pushLast (c : CmdWord) (hi : i = .word (.command c)) (hop : c.extractLsb' 8 2 = 0b10#2) (hc : u.cnt = 63)
      (ht : t = u.completeFrame (c.extractLsb' 0 8))
  | illegal (c : CmdWord) (hi : i = .word (.command c)) (hop : c.extractLsb' 8 2 = 0b11#2) (ht : t = u.recordIllegal)
  | read (a : ReadAddr) (hi : i = .word (.read a)) (w : Word) (hexec : exec (decodeRead a) u = .next t)
      (ht : t = u.returnWord w)

/-- An address decodes to no command. -/
theorem decodeRead_ne_command (a : ReadAddr) :
    decodeRead a ≠ .nop ∧ decodeRead a ≠ .clear ∧ decodeRead a ≠ .illegal ∧ ∀ b, decodeRead a ≠ .push b := by
  have noPush : ∀ a : ReadAddr, (match decodeRead a with | .push _ => true | _ => false) = false := by decide
  refine ⟨by revert a; decide, by revert a; decide, by revert a; decide, fun b h => ?_⟩
  have := noPush a
  rw [h] at this
  cases this

/-- The inversion of `step`. -/
theorem step_inversion {s t : State} (h : step s = .next t) :
    StepCase s.nextInput { s with inputs := s.inputs.tail } t := by
  have hu := State.takeInput_state s
  obtain ⟨c, hi, ht⟩ | ⟨w, hi, ht⟩ := step_cases h
  · exact .rst c hi (hu ▸ ht)
  · rw [hu] at ht
    cases w with
    | command c =>
      obtain ⟨hop, hd⟩ | ⟨hop, hd⟩ | ⟨hop, hd⟩ | ⟨hop, hd⟩ := decodeCommand_cases c <;> simp only [decode, hd] at ht
      · exact .nop c hi hop (by simpa [exec, execNop] using ht.symm)
      · exact .clear c hi hop (by simpa [exec, execClear] using ht.symm)
      · by_cases hc : State.cnt { s with inputs := s.inputs.tail } < 63
        · rw [exec_push_below _ hc] at ht
          exact .pushBelow c hi hop hc (by simpa using ht.symm)
        · rw [exec_push_last _ hc] at ht
          exact .pushLast c hi hop ((cnt_not_below_iff _).1 hc) (by simpa using ht.symm)
      · exact .illegal c hi hop (by simpa [exec, execIllegal] using ht.symm)
    | read a =>
      obtain ⟨hn, hc, hl, hp⟩ := decodeRead_ne_command a
      obtain ⟨h, _⟩ | ⟨h, _⟩ | ⟨b, h, _⟩ | ⟨b, h, _⟩ | ⟨h, _⟩ | ⟨w, h⟩ := exec_cases ht
      · exact absurd h hn
      · exact absurd h hc
      · exact absurd h (hp b)
      · exact absurd h (hp b)
      · exact absurd h hl
      · exact .read a hi w ht h

/-- The next input of a schedule that is not empty. -/
theorem nextInput_cons {s : State} {i : PortInput} {rest : List PortInput} (h : s.inputs = i :: rest) :
    s.nextInput = i := by
  simp [State.nextInput, State.takeInput_cons s i rest h]

/-- A step takes one input, if there is one. -/
theorem step_inputs {s t : State} (h : step s = .next t) : t.inputs = s.inputs.tail := by
  cases step_inversion h <;> (rename_i ht; simp [ht])

/-! Runs. -/

@[simp] theorem run_zero (s : State) : Sys2Proof.core.run 0 s = .next s := rfl

/-- A run of no step ends where it starts. -/
theorem run_zero_inj {s t : State} (h : Sys2Proof.core.run 0 s = .next t) : s = t :=
  Host.Outcome.next.inj (show (.next s : Host.Outcome State Fault Refusal) = .next t from h)

/-- A run's first step. -/
theorem run_succ {s u : State} (n : Nat) (h : step s = .next u) :
    Sys2Proof.core.run (n + 1) s = Sys2Proof.core.run n u := by
  have h' : Sys2Proof.core.step s = .next u := h
  simp only [Host.Core.run, h']

/-- A run after a run. -/
theorem run_add {s t : State} (m n : Nat) (h : Sys2Proof.core.run m s = .next t) :
    Sys2Proof.core.run (m + n) s = Sys2Proof.core.run n t := by
  induction m generalizing s with
  | zero =>
    have hst : s = t := run_zero_inj h
    rw [Nat.zero_add, hst]
  | succ m ih =>
    rw [Nat.succ_add]
    simp only [Host.Core.run] at h ⊢
    cases hs : Sys2Proof.core.step s with
    | next u => rw [hs] at h; exact ih h
    | fault r => rw [hs] at h; cases h
    | refused r => rw [hs] at h; cases h

end Sys2Proof.Machine
end

