-- ==== Sys2Proof/Tests/Slice0.lean ====
section
/-! SUPPORT. The model's own tests: expected results are written out from spec/ (each theorem says where). And one
witness for the hypotheses of every statement that has some. -/

namespace Sys2Proof.Tests

open Sys2Proof Sys2Proof.Machine

/-! ## Well-formedness -/

theorem test_wellFormed_refuses_bin_16 : ¬ (Instr.rdBin 16).WellFormed := by decide
theorem test_wellFormed_refuses_tof_4 : ¬ (Instr.rdTof 4).WellFormed := by decide
theorem test_wellFormed_refuses_raw_16 : ¬ (Instr.rdRaw 16).WellFormed := by decide
theorem test_wellFormed_accepts_last_index :
    (Instr.rdBin 15).WellFormed ∧ (Instr.rdTof 3).WellFormed ∧ (Instr.rdRaw 15).WellFormed := by decide

/-! ## Decoding: one word of every row, from 30_encoding.md R61 and R63 -/

theorem test_decode_commands :
    decode (.command 0b0000000000) = .nop ∧ decode (.command 0b0100000000) = .clear ∧
    decode (.command 0b1000000001) = .push 0x01 ∧ decode (.command 0b1100000000) = .illegal := by decide

theorem test_decode_indexed_reads :
    decode (.read 0b000000) = .rdBin 0 ∧ decode (.read 0b001010) = .rdBin 10 ∧ decode (.read 0b010010) = .rdTof 2 ∧
    decode (.read 0b110000) = .rdRaw 0 ∧ decode (.read 0b111101) = .rdRaw 13 := by decide

theorem test_decode_fixed_reads :
    decode (.read 0b010100) = .rdFlow ∧ decode (.read 0b010101) = .rdTsig ∧ decode (.read 0b010110) = .rdTempc ∧
    decode (.read 0b010111) = .rdHsig ∧ decode (.read 0b011000) = .rdRh ∧ decode (.read 0b011001) = .rdPeriod ∧
    decode (.read 0b011010) = .rdRglitch ∧ decode (.read 0b011011) = .rdRlong ∧ decode (.read 0b011100) = .rdPm1 ∧
    decode (.read 0b011101) = .rdPm25 ∧ decode (.read 0b011110) = .rdPm10 ∧ decode (.read 0b011111) = .rdDevcrc ∧
    decode (.read 0b100000) = .rdCrc ∧ decode (.read 0b100001) = .rdStatus ∧
    decode (.read 0b100010) = .rdRuncrc := by decide

theorem test_decode_reserved_reads :
    decode (.read 0b100011) = .reservedRd23 ∧ decode (.read 0b100100) = .reservedRd24 ∧
    decode (.read 0b100101) = .reservedRd25 ∧ decode (.read 0b100110) = .reservedRd26 ∧
    decode (.read 0b100111) = .reservedRd27 ∧ decode (.read 0b101000) = .reservedRd28 ∧
    decode (.read 0b101001) = .reservedRd29 ∧ decode (.read 0b101010) = .reservedRd2A ∧
    decode (.read 0b101011) = .reservedRd2B ∧ decode (.read 0b101100) = .reservedRd2C ∧
    decode (.read 0b101101) = .reservedRd2D ∧ decode (.read 0b101110) = .reservedRd2E ∧
    decode (.read 0b101111) = .reservedRd2F := by decide

/-- A row's word in the width the table gives it: 10 bits in two bytes, 6 bits in one. -/
theorem test_decodeTableWord :
    decodeTableWord 16 0x200 = some (.push 0x00) ∧ decodeTableWord 16 0x3FF = some .illegal ∧
    decodeTableWord 8 0x10 = some (.rdTof 0) ∧ decodeTableWord 8 0x3F = some (.rdRaw 15) := by decide

/-- Bits past the port's wires, and lengths no port has, are rejected by name (log 11). -/
theorem test_decodeBytes_rejects :
    decodeBytes [0x40] = .error .unwiredBits ∧ decodeBytes [0x00, 0x04] = .error .unwiredBits ∧
    decodeBytes [] = .error .wrongLength ∧ decodeBytes [0, 0, 0] = .error .wrongLength := ⟨rfl, rfl, rfl, rfl⟩

/-! ## A frame and states to read from -/

/-- The bytes of program P2 (95_test_vectors.md section 3). -/
def bytesP2 : List Byte :=
  [0x34, 0x12, 0x01, 0x00, 0x02, 0x00, 0x03, 0x00, 0x04, 0x00, 0x05, 0x00, 0x06, 0x00, 0x07, 0x00]
  ++ [0x08, 0x00, 0x09, 0x00, 0x0A, 0x00, 0x0B, 0x00, 0x0C, 0x00, 0x0D, 0x00, 0x0E, 0x00, 0xFF, 0xFF]
  ++ [0x2A, 0x15, 0x10, 0x08, 0x00, 0x00, 0x80, 0x3F, 0x00, 0x80, 0x12, 0x34, 0x00, 0x00, 0xC0, 0x3F]
  ++ [0x03, 0x00, 0x00, 0x00, 0x50, 0x40, 0x00, 0x00, 0x48, 0x41, 0xCD, 0xCC, 0xCC, 0x3D, 0x60, 0x92]

/-- The frame of program P2. -/
def frameP2 : Frame := Vector.ofFn fun i => bytesP2.getD i 0x00

/-- A state that exposes a frame; `order` is HUM_ORDER. -/
def showing (order : HumOrder) (f : Frame) (crc : Half) : State :=
  { State.reset with config := { humOrder := order }, ofr := f, ocrc := crc, ovalid := true }

/-- Five zero bytes captured (V-CAP-3 and V-RD-5). -/
def fiveZeros : State := { State.reset with cnt := 5, rcrc := 0x0024 }

/-- The word a read returns. -/
def wordOf (i : Instr) (s : State) : Option Word :=
  match exec i s with
  | .next t => some t.rdata
  | .fault _ => none
  | .refused _ => none

/-! ## Reads of program P2 (95_test_vectors.md section 3, P2) -/

theorem test_rdBin : wordOf (.rdBin 0) (showing .le frameP2 0) = some 0x00001234 ∧
    wordOf (.rdBin 15) (showing .le frameP2 0) = some 0x0000FFFF := by decide
theorem test_rdTof : wordOf (.rdTof 0) (showing .le frameP2 0) = some 0x0000002A ∧
    wordOf (.rdTof 3) (showing .le frameP2 0) = some 0x00000008 := by decide
theorem test_rdFlow : wordOf .rdFlow (showing .le frameP2 0) = some 0x3F800000 := by decide
theorem test_rdTsig : wordOf .rdTsig (showing .le frameP2 0) = some 0x00008000 := by decide
theorem test_rdTempc : wordOf .rdTempc (showing .le frameP2 0) = some 0x422A015E := by decide
theorem test_rdHsig_le : wordOf .rdHsig (showing .le frameP2 0) = some 0x00003412 := by decide
theorem test_rdHsig_ref : wordOf .rdHsig (showing .ref frameP2 0) = some 0x00001234 := by decide
theorem test_rdRh_le : wordOf .rdRh (showing .le frameP2 0) = some 0x41A2B8E3 := by decide
theorem test_rdRh_ref : wordOf .rdRh (showing .ref frameP2 0) = some 0x40E38AE4 := by decide
theorem test_rdPeriod : wordOf .rdPeriod (showing .le frameP2 0) = some 0x3FC00000 := by decide
theorem test_rdRglitch : wordOf .rdRglitch (showing .le frameP2 0) = some 0x00000003 := by decide
theorem test_rdRlong : wordOf .rdRlong (showing .le (writeByte frameP2 49 0xFF) 0) = some 0x000000FF := by decide
theorem test_rdPm1 : wordOf .rdPm1 (showing .le frameP2 0) = some 0x40500000 := by decide
theorem test_rdPm25 : wordOf .rdPm25 (showing .le frameP2 0) = some 0x41480000 := by decide
theorem test_rdPm10 : wordOf .rdPm10 (showing .le frameP2 0) = some 0x3DCCCCCD := by decide
theorem test_rdDevcrc : wordOf .rdDevcrc (showing .le frameP2 0) = some 0x00009260 := by decide
theorem test_rdCrc : wordOf .rdCrc (showing .le frameP2 0x2F40) = some 0x00002F40 := by decide
theorem test_rdRaw : wordOf (.rdRaw 10) (showing .le frameP2 0) = some 0x34128000 ∧
    wordOf (.rdRaw 15) (showing .le frameP2 0) = some 0x92603DCC := by decide
/-- V-RD-5, and V-RD-6's STATUS. -/
theorem test_rdStatus : wordOf .rdStatus fiveZeros = some 0x00050000 ∧
    wordOf .rdStatus { showing .le frameP2 0 with cnt := 10, seq := 1, errIll := true } = some 0x000A0103 := by decide
theorem test_rdRuncrc : wordOf .rdRuncrc fiveZeros = some 0x00000024 := by decide
/-- V-RD-4, with a frame exposed. -/
theorem test_reservedRd : wordOf .reservedRd23 (showing .le frameP2 0) = some 0 ∧
    wordOf .reservedRd2F (showing .le frameP2 0) = some 0 := by decide
/-- V-RD-1 at three addresses: with no frame exposed a gated read is zero. -/
theorem test_gated_at_reset : wordOf .rdTempc State.reset = some 0 ∧ wordOf .rdCrc State.reset = some 0 ∧
    wordOf (.rdRaw 0) { State.reset with ofr := frameP2 } = some 0 := by decide

/-! ## Commands (95_test_vectors.md section 2.2) -/

/-- V-CAP-2. -/
theorem test_push_below : ∃ t, exec (.push 0xFF) State.reset = .next t ∧
    frameByte t.buf 0 = 0xFF ∧ t.cnt = 1 ∧ t.rcrc = 0x00FF ∧ t.ovalid = false := ⟨_, rfl, by decide⟩
/-- V-CAP-8, from the 63rd byte on. -/
theorem test_push_last : ∃ t, exec (.push 0x00) { State.reset with cnt := 63, rcrc := 0xC06A } = .next t ∧
    t.ocrc = 0x2F40 ∧ t.ovalid = true ∧ t.seq = 1 ∧ t.cnt = 0 ∧ t.rcrc = 0xFFFF := ⟨_, rfl, by decide⟩
/-- V-CAP-3. -/
theorem test_clear : exec .clear fiveZeros = .next State.reset := rfl
/-- V-CAP-7. -/
theorem test_illegal : ∃ t, exec .illegal fiveZeros = .next t ∧ statusWord t = 0x00050002 ∧ t.rcrc = 0x0024 :=
  ⟨_, rfl, by decide⟩
/-- V-CAP-5. -/
theorem test_nop : exec .nop fiveZeros = .next fiveZeros := rfl
/-- V-CAP-12. -/
theorem test_rst_ignores_the_command : ∃ t, step { fiveZeros with inputs := [.rst 0x255] } = .next t ∧
    statusWord t = 0 ∧ runcrcWord t = 0x0000FFFF ∧ t.inputs = [] := ⟨_, rfl, by decide⟩
/-- A table word placed by `withFetchWord` runs first after reset. -/
theorem test_withFetchWord : step (State.reset.withFetchWord 16 0x300) = .next { State.reset with errIll := true } ∧
    step (State.reset.withFetchWord 8 0x22) = .next { State.reset with rdata := 0x0000FFFF } := ⟨rfl, rfl⟩
/-- R67: FRAME is exactly 65 commands. -/
theorem test_frame_is_65_commands : (asmFrame frameP2).length = 65 := by decide

/-! ## Functions -/

/-- V-CRC-B, two rows. -/
theorem test_crc16Byte : crc16Byte 0x1234 0x56 = 0xE993 ∧ crc16Byte 0xA001 0x01 = 0x00A0 := by decide
/-- Program P2: the CRC of bytes 0..61. -/
theorem test_crc16_of_62 : crc16 frameP2 62 = 0x9260 := by decide +kernel
/-- Rounding: a tie to even, a carry into the exponent, and 1/3 (worked by hand from R112). -/
theorem test_rne32 : rne32 16777217 1 = 0x4B800000 ∧ rne32 33554431 1 = 0x4C000000 ∧ rne32 1 3 = 0x3EAAAAAB := by
  decide
/-- Section 2.5, signal 16384, a negative result. -/
theorem test_tempCelsius_negative : tempCelsius 0x4000 = 0xBF9FEA20 := by decide

/-! ## Witnesses: the hypotheses of each statement are met -/

/-- The word of PUSH b. -/
def pushInput (b : Byte) : PortInput := .word (.command (0b10#2 ++ b))
/-- A read of an address. -/
def readInput (a : ReadAddr) : PortInput := .word (.read a)
/-- One byte of a capture, 0x00 (V-CAP-1), and what comes next. -/
def oneZero (l : List PortInput) : State := { State.reset with cnt := 1, rcrc := 0x40BF, inputs := l }
/-- The last byte but one, and the last, are next. -/
def at62 (l : List PortInput) : State := { State.reset with cnt := 62, inputs := l }
def at63 (l : List PortInput) : State := { State.reset with cnt := 63, inputs := l }

theorem oneZero_inv (l : List PortInput) : (oneZero l).Inv := ⟨rfl, fun h => nomatch h⟩

theorem witness_DecodingAnEncodedInstructionGivesItBack :
    (Instr.rdBin 15).WellFormed ∧ (Instr.rdTof 3).WellFormed ∧ (Instr.rdRaw 15).WellFormed := by decide
theorem witness_EveryCommandWordSelectsOneRow :
    (0x0FF : CmdWord) &&& 0x300 = 0x000 ∧ (0x1FF : CmdWord) &&& 0x300 = 0x100 ∧
    (0x2FF : CmdWord) &&& 0x300 = 0x200 ∧ (0x3FF : CmdWord) &&& 0x300 = 0x300 := by decide
theorem witness_OperandsAreSlicesOfTheWord :
    (0x0F : ReadAddr).extractLsb' 4 2 = 0b00#2 ∧ (0x13 : ReadAddr).extractLsb' 2 4 = 0b0100#4 ∧
    (0x30 : ReadAddr).extractLsb' 4 2 = 0b11#2 := by decide
theorem witness_StepRunsThePresentedInput :
    (at63 [pushInput 0x55]).inputs = .word (.command 0x255) :: [] ∧
    (at63 [.rst 0x3FF]).inputs = .rst 0x3FF :: [] ∧ (at63 []).inputs = [] := by decide
theorem witness_PlacedTableWordRunsNext :
    decodeTableWord 16 0x2AB = some (.push 0xAB) ∧ decodeTableWord 8 0x3F = some (.rdRaw 15) := by decide
theorem witness_EveryEdgeTakesOneCommandInOrder :
    (at62 [pushInput 1, pushInput 2]).inputs = .word (.command 0x201) :: [pushInput 2] := by decide
theorem witness_NopWritesNothing :
    (oneZero []).inputs = [] ∧ (oneZero (asmIdle 3 ++ [pushInput 7])).inputs = asmIdle 3 ++ [pushInput 7] := by decide
theorem witness_ClearRestartsTheCapture :
    gatedAddr 0x20 = true ∧ gatedAddr 0x30 = true ∧
    { State.reset with seq := 3 }.CaptureInv ∧ { State.reset with seq := 3 }.cnt = 0 := by decide
theorem witness_PushFollowsItsPseudocode : (at62 []).cnt < 63 ∧ ¬ (at63 []).cnt < 63 := by decide
theorem witness_PushBelowTheLastByteExtendsTheCapture :
    (at62 []).cnt < 63 ∧ (oneZero []).cnt < 63 ∧ gatedAddr 0x00 = true ∧
    (oneZero []).buf.toList.take (oneZero []).cnt.toNat = [0x00] := by decide
/-- The bytes of P2 but the last, captured (RCRC is then that of the 63 bytes). -/
def capturedP2 (l : List PortInput) : State :=
  { State.reset with buf := frameP2, cnt := 63, rcrc := crc16From crcInit (frameP2.toList.take 63), inputs := l }
theorem witness_PushOfTheLastByteCompletesTheFrame :
    (capturedP2 []).cnt = 63 ∧ (capturedP2 []).CaptureInv ∧
    (showing .le frameP2 0x1234).ovalid = true ∧ gatedAddr 0x3F = true :=
  ⟨rfl, by simp [State.CaptureInv, capturedP2], rfl, by decide⟩
theorem witness_ReservedCommandSetsErrIllOnly :
    ∃ t, { fiveZeros with errIll := true }.errIll = true ∧
      { fiveZeros with errIll := true }.nextInput.isRst = false ∧
      step { fiveZeros with errIll := true } = .next t := ⟨_, rfl, rfl, rfl⟩
/-- A read, a NOP and an ILLEGAL between the bytes of P2. -/
def scheduleP2 : List PortInput :=
  asmPushs (bytesP2.take 1) ++ [readInput 0x21, asm .nop, asm .illegal] ++ asmPushs (bytesP2.drop 1)
theorem witness_CaptureDeliversTheFrame :
    keepsCapture scheduleP2 = true ∧ pushedBytes scheduleP2 = frameP2.toList ∧
    (fun s : State => s.inputs = asm .clear :: (scheduleP2 ++ [readInput 0x20]))
      (oneZero (asm .clear :: (scheduleP2 ++ [readInput 0x20]))) :=
  ⟨by decide, by decide, rfl⟩
theorem witness_EqualSeqMeansTheSameFrame :
    ∃ t, (∀ i ∈ (at62 [pushInput 1]).inputs.take 1, i.isRst = false) ∧
      Sys2Proof.core.run 1 (at62 [pushInput 1]) = .next t ∧ State.seq t = (at62 [pushInput 1]).seq :=
  ⟨_, by decide, rfl, rfl⟩
theorem witness_CompletionShowsAfterItsEdge :
    (at63 [readInput 0x20, asm (.push 0x00), readInput 0x20]).cnt = 63 ∧
    (at63 [readInput 0x20, asm (.push 0x00), readInput 0x20]).inputs =
      .word (.read 0x20) :: asm (.push 0x00) :: .word (.read 0x20) :: [] := by decide
theorem witness_CntCountsTheBytesOfTheCapture :
    ∃ t, (at62 [pushInput 0xAA]).nextInput.pushed = some 0xAA ∧ step (at62 [pushInput 0xAA]) = .next t :=
  ⟨_, by decide, rfl⟩
theorem witness_RcrcIsTheRunningCrc :
    ∃ t, (oneZero [pushInput 0x00]).CaptureInv ∧ step (oneZero [pushInput 0x00]) = .next t :=
  ⟨_, (oneZero_inv _).capture, rfl⟩
theorem witness_OutputFrameIsWrittenOnlyWhole :
    (∃ t, step (at62 [pushInput 1]) = .next t ∧ (at62 [pushInput 1]).nextInput.isRst = false ∧
      (at62 [pushInput 1]).completesNext = false) ∧
    (∃ t, step (at63 [pushInput 1]) = .next t ∧ (at63 [pushInput 1]).nextInput.pushed = some 1 ∧
      (at63 [pushInput 1]).cnt = 63) ∧
    (fiveZeros.ovalid = false ∧ gatedAddr 0x1F = true) ∧
    { showing .le frameP2 0 with cnt := 9 }.ofr = (showing .le frameP2 0).ofr :=
  ⟨⟨_, rfl, by decide, by decide⟩, ⟨_, rfl, by decide, rfl⟩, by decide, rfl⟩
theorem witness_OvalidMeansACompleteFrame :
    (∃ t, step (showing .le frameP2 0) = .next t ∧ t.ovalid = true) ∧
    (∃ t, step (at63 [pushInput 1]) = .next t ∧ t.ovalid = true) := ⟨⟨_, rfl, rfl⟩, ⟨_, rfl, rfl⟩⟩
theorem witness_SeqCountsCompletions :
    ∃ t, step { at63 [pushInput 1] with seq := 0xFF } = .next t ∧ t.seq = 0x00 := ⟨_, rfl, by decide⟩
theorem witness_ErrIllIsStickyUntilReset :
    ∃ t, step { fiveZeros with inputs := [.word (.command 0x377)] } = .next t ∧ t.errIll = true := ⟨_, rfl, rfl⟩
theorem witness_BufIsWrittenByPushOnly :
    (∃ t, step (at63 [readInput 0x20]) = .next t ∧ (at63 [readInput 0x20]).nextInput.isRst = false ∧
      (at63 [readInput 0x20]).nextInput.pushed = none) ∧
    (∃ t, step (at63 [pushInput 1]) = .next t ∧ (at63 [pushInput 1]).nextInput.pushed = some 1) :=
  ⟨⟨_, rfl, rfl, rfl⟩, ⟨_, rfl, by decide⟩⟩
theorem witness_HumOrderNeverChangesAndReachesTwoReads :
    (∃ t, step (showing .ref frameP2 0) = .next t) ∧ (0x16 : ReadAddr) ≠ 0x17 ∧ (0x16 : ReadAddr) ≠ 0x18 :=
  ⟨⟨_, rfl⟩, by decide, by decide⟩
theorem witness_EveryStepKeepsTheInvariants :
    ∃ t, (oneZero [pushInput 0x00]).Inv ∧ step (oneZero [pushInput 0x00]) = .next t := ⟨_, oneZero_inv _, rfl⟩
theorem witness_ResetEdgeSetsTheStatedValues :
    (at63 [.rst 0x255, pushInput 1]).inputs = .rst 0x255 :: [pushInput 1] ∧ gatedAddr 0x20 = true := by decide
/-- Two states that show the same and hold other bytes where nothing can be observed. -/
theorem witness_UnspecifiedContentsAreNeverObserved :
    ∃ s s' t t' : State, s.buf ≠ s'.buf ∧ s.ofr ≠ s'.ofr ∧ SameShown s s' ∧ step s = .next t ∧ step s' = .next t' :=
  ⟨oneZero [readInput 0x00],
    { oneZero [readInput 0x00] with buf := writeByte State.reset.buf 1 0xEE, ofr := frameP2, ocrc := 0xBEEF },
    _, _, by decide, by decide,
    ⟨rfl, rfl, rfl, rfl, rfl, rfl, rfl, rfl, by decide, (fun h => nomatch h), (fun h => nomatch h)⟩, rfl, rfl⟩
theorem witness_ReadsHaveNoSideEffects :
    (oneZero [readInput 0x21, readInput 0x21, pushInput 1]).inputs =
      List.replicate (1 + 1) (.word (.read 0x21)) ++ [pushInput 1] := by decide
theorem witness_ReservedAddressesReadZero :
    ((0x23 : ReadAddr) ≤ 0x23 ∧ (0x23 : ReadAddr) ≤ 0x2F) ∧ (0x23 : ReadAddr) ≤ 0x2F ∧ (0x2F : ReadAddr) ≤ 0x2F := by
  decide
/-- Bin 15 at [0x34, 0x12]. -/
def frameBin15 : Frame := writeByte (writeByte frameP2 30 0x34) 31 0x12
theorem witness_RdBinReturnsTheBin :
    15 < 16 ∧ (showing .le frameBin15 0).ovalid = true ∧ frameByte (showing .le frameBin15 0).ofr (2 * 15) = 0x34 ∧
    frameByte (showing .le frameBin15 0).ofr (2 * 15 + 1) = 0x12 := by decide
theorem witness_RdTofReturnsTheTimeOfFlight : 3 < 4 := by decide
theorem witness_IllFormedIndexIsRefused : 16 ≤ 16 ∧ 4 ≤ 4 := by decide
theorem witness_RdHsigFollowsHumOrder :
    (showing .le frameP2 0).config.humOrder = .le ∧ (showing .ref frameP2 0).config.humOrder = .ref ∧
    frameByte State.reset.ofr 42 = frameByte State.reset.ofr 43 := by decide
theorem witness_RdRhConvertsTheSignal :
    (showing .le frameP2 0).config.humOrder = .le ∧ (showing .ref frameP2 0).config.humOrder = .ref := by decide
theorem witness_RdRawReturnsTheFrame :
    15 < 16 ∧ ∀ k < 16, rawWord frameP2 k = rawWord (Vector.ofFn fun i => frameByte frameP2 i) k := by decide
theorem witness_ChecksumReadsReturnBothChecksums :
    (showing .le (Vector.replicate 64 0x00) 0x2F40).Inv ∧ (showing .le (Vector.replicate 64 0x00) 0x2F40).ovalid = true :=
  ⟨⟨rfl, fun _ => by decide +kernel⟩, rfl⟩
theorem witness_ChecksumsAreNeverCompared : (capturedP2 []).cnt = 63 := rfl
theorem witness_SixteenBitFieldsAreHalvesOfRawWords : 0 < 32 ∧ 31 < 32 := by decide
/-- The least normal number, the greatest finite one, and a tie (2^24 + 1 lies between 2^24 and 2^24 + 2). -/
theorem witness_RneIsNearestTiesToEven :
    ((2 : ℚ) ^ (-126 : ℤ) ≤ |((1 : Int) : ℚ) / ((2 ^ 126 : Nat) : ℚ)| ∧
      |((1 : Int) : ℚ) / ((2 ^ 126 : Nat) : ℚ)| ≤ (2 : ℚ) ^ (128 : ℤ) - (2 : ℚ) ^ (104 : ℤ)) ∧
    |(((2 ^ 128 - 2 ^ 104 : Nat) : Int) : ℚ) / ((1 : Nat) : ℚ)| ≤ (2 : ℚ) ^ (128 : ℤ) - (2 : ℚ) ^ (104 : ℤ) ∧
    (F32Finite 0x4B800001 ∧ f32Value 0x4B800001 ≠ f32Value (rne32 16777217 1) ∧
      |f32Value (rne32 16777217 1) - 16777217| = |f32Value 0x4B800001 - 16777217|) := by
  refine ⟨⟨?_, ?_⟩, ?_, by decide, by decide +kernel, by decide +kernel⟩
  · norm_num [abs_of_pos]
  · norm_num [abs_of_pos]
  · norm_num [abs_of_pos]
theorem witness_ConversionsAreMonotoneAndInRange : (0x41D4 : Half) ≤ 0x41D5 := by decide
theorem witness_CrcIsTheFoldOverTheBytes : 64 ≤ 64 := by decide
/-- 62 zero bytes, then 0x01, 0xAB (V-CRC-F); and program P2, whose CRC of 62 bytes is not 0. -/
theorem witness_FrameCarryingItsCrcHasResidueZero :
    deviceChecksum (writeByte (writeByte (Vector.replicate 64 0x00) 62 0x01) 63 0xAB) =
      crc16 (writeByte (writeByte (Vector.replicate 64 0x00) 62 0x01) 63 0xAB) 62 ∧
    deviceChecksum frameP2 = crc16 frameP2 62 := ⟨by decide +kernel, by decide +kernel⟩
theorem witness_OneChangedByteChangesTheChecksum : (0x35 : Byte) ≠ frameByte frameP2 (0 : BitVec 6).toNat := by decide

end Sys2Proof.Tests
end

section
/-! PROOF. Each register of 10_state.md at a step, and the status views: the statements O20, O21, O23, O24, O25, O28
and O29. -/

namespace Sys2Proof

/-! What an input is, by its form. -/

@[simp] theorem PortInput.isRst_rst (c : CmdWord) : (PortInput.rst c).isRst = true := rfl
@[simp] theorem PortInput.isRst_word (w : PortWord) : (PortInput.word w).isRst = false := rfl
@[simp] theorem PortInput.hasOp_rst (op : BitVec 2) (c : CmdWord) : (PortInput.rst c).hasOp op = false := rfl
@[simp] theorem PortInput.hasOp_read (op : BitVec 2) (a : ReadAddr) :
    (PortInput.word (.read a)).hasOp op = false := rfl
@[simp] theorem PortInput.hasOp_command (op : BitVec 2) (c : CmdWord) :
    (PortInput.word (.command c)).hasOp op = (c.extractLsb' 8 2 == op) := rfl
@[simp] theorem PortInput.pushed_rst (c : CmdWord) : (PortInput.rst c).pushed = none := rfl
@[simp] theorem PortInput.pushed_read (a : ReadAddr) : (PortInput.word (.read a)).pushed = none := rfl
@[simp] theorem PortInput.pushed_command (c : CmdWord) :
    (PortInput.word (.command c)).pushed =
      if c.extractLsb' 8 2 = 0b10#2 then some (c.extractLsb' 0 8) else none := rfl

/-- The inputs with PUSH's `op` are those that push a byte. -/
theorem PortInput.hasOp_push (i : PortInput) : i.hasOp 0b10#2 = i.pushed.isSome := by
  rcases i with (c | a) | c
  · by_cases hop : c.extractLsb' 8 2 = 0b10#2 <;> simp [hop]
  · rfl
  · rfl

end Sys2Proof

namespace Sys2Proof.Machine

open Sys2Proof

/-! Taking the next input leaves every register as it is. -/

@[simp] theorem State.takeInput_cnt (s : State) : s.takeInput.2.cnt = s.cnt := by rw [State.takeInput_state]
@[simp] theorem State.takeInput_rcrc (s : State) : s.takeInput.2.rcrc = s.rcrc := by rw [State.takeInput_state]
@[simp] theorem State.takeInput_buf (s : State) : s.takeInput.2.buf = s.buf := by rw [State.takeInput_state]
@[simp] theorem State.takeInput_ofr (s : State) : s.takeInput.2.ofr = s.ofr := by rw [State.takeInput_state]
@[simp] theorem State.takeInput_ocrc (s : State) : s.takeInput.2.ocrc = s.ocrc := by rw [State.takeInput_state]
@[simp] theorem State.takeInput_ovalid (s : State) : s.takeInput.2.ovalid = s.ovalid := by
  rw [State.takeInput_state]
@[simp] theorem State.takeInput_seq (s : State) : s.takeInput.2.seq = s.seq := by rw [State.takeInput_state]

/-! A completion is next exactly when a PUSH meets CNT = 63. -/

theorem State.completesNext_of_pushed_none {s : State} (hpush : s.nextInput.pushed = none) :
    s.completesNext = false := by
  simp [State.completesNext, hpush]

theorem State.completesNext_of_below {s : State} (hc : s.cnt < 63) : s.completesNext = false := by
  have hne : s.cnt ≠ 63 := fun h => (cnt_not_below_iff s).2 h hc
  simpa [State.completesNext] using fun _ => hne

theorem State.completesNext_of_pushed_last {s : State} {b : Byte} (hpush : s.nextInput.pushed = some b)
    (hc : s.cnt = 63) : s.completesNext = true := by
  simp [State.completesNext, hpush, hc]

/-- What a step does, by the properties of its input that the statements about registers speak of. The last case is
NOP, a read or the reserved command, which write the model's `rdata` and ERR_ILL at most. -/
inductive StepEffect (s t : State) : Prop
  | reset (hrst : s.nextInput.isRst = true) (hpush : s.nextInput.pushed = none) (ht : t = s.takeInput.2.resetEdge)
  | clear (hrst : s.nextInput.isRst = false) (hclear : s.nextInput.hasOp 0b01#2 = true)
      (hpush : s.nextInput.pushed = none) (ht : t = s.takeInput.2.clearCapture)
  | capture (b : Byte) (hrst : s.nextInput.isRst = false) (hclear : s.nextInput.hasOp 0b01#2 = false)
      (hpush : s.nextInput.pushed = some b) (hc : s.cnt < 63) (ht : t = s.takeInput.2.captureByte b)
  | complete (b : Byte) (hrst : s.nextInput.isRst = false) (hclear : s.nextInput.hasOp 0b01#2 = false)
      (hpush : s.nextInput.pushed = some b) (hc : s.cnt = 63) (ht : t = s.takeInput.2.completeFrame b)
  | keep (hrst : s.nextInput.isRst = false) (hclear : s.nextInput.hasOp 0b01#2 = false)
      (hpush : s.nextInput.pushed = none) (ht : t = { s.takeInput.2 with rdata := t.rdata, errIll := t.errIll })

theorem step_effect {s t : State} (h : step s = .next t) : StepEffect s t := by
  have hcase := step_inversion h
  rw [← State.takeInput_state] at hcase
  cases hcase with
  | rst c hi ht => exact .reset (by simp [hi]) (by simp [hi]) ht
  | nop c hi hop ht => exact .keep (by simp [hi]) (by simp [hi, hop]) (by simp [hi, hop]) (by rw [ht])
  | clear c hi hop ht => exact .clear (by simp [hi]) (by simp [hi, hop]) (by simp [hi, hop]) ht
  | pushBelow c hi hop hc ht =>
    exact .capture _ (by simp [hi]) (by simp [hi, hop]) (by simp [hi, hop]) (by simpa using hc) ht
  | pushLast c hi hop hc ht =>
    exact .complete _ (by simp [hi]) (by simp [hi, hop]) (by simp [hi, hop]) (by simpa using hc) ht
  | illegal c hi hop ht => exact .keep (by simp [hi]) (by simp [hi, hop]) (by simp [hi, hop]) (by rw [ht]; rfl)
  | read a hi w _ ht => exact .keep (by simp [hi]) (by simp [hi]) (by simp [hi]) (by rw [ht]; rfl)

/-- A step that takes a PUSH is one of its two cases. -/
theorem step_of_pushed {s t : State} {b : Byte} (h : step s = .next t) (hb : s.nextInput.pushed = some b) :
    (s.cnt < 63 ∧ t = s.takeInput.2.captureByte b) ∨ (s.cnt = 63 ∧ t = s.takeInput.2.completeFrame b) := by
  cases step_effect h with
  | reset hrst hpush ht => simp [hpush] at hb
  | clear hrst hclear hpush ht => simp [hpush] at hb
  | capture b' hrst hclear hpush hc ht =>
    obtain rfl : b' = b := by simpa [hpush] using hb
    exact .inl ⟨hc, ht⟩
  | complete b' hrst hclear hpush hc ht =>
    obtain rfl : b' = b := by simpa [hpush] using hb
    exact .inr ⟨hc, ht⟩
  | keep hrst hclear hpush ht => simp [hpush] at hb

/-! ## CNT and RCRC: the running capture -/

theorem step_cnt {s t : State} (h : step s = .next t) :
    t.cnt.toNat =
      if s.nextInput.isRst || s.nextInput.hasOp 0b01 || s.completesNext then 0
      else if s.nextInput.hasOp 0b10 then s.cnt.toNat + 1
      else s.cnt.toNat := by
  cases step_effect h with
  | reset hrst hpush ht => simp [hrst, ht]
  | clear hrst hclear hpush ht => simp [hclear, ht]
  | capture b hrst hclear hpush hc ht =>
    have hsucc : (s.cnt.toNat + 1) % 64 = s.cnt.toNat + 1 := by bv_omega
    simp [hrst, hclear, PortInput.hasOp_push, hpush, State.completesNext_of_below hc, ht, hsucc]
  | complete b hrst hclear hpush hc ht => simp [State.completesNext_of_pushed_last hpush hc, ht]
  | keep hrst hclear hpush ht =>
    rw [ht]
    simp [hrst, hclear, PortInput.hasOp_push, hpush, State.completesNext_of_pushed_none hpush]

/-- A PUSH writes its byte at index CNT, in either case. -/
theorem step_writes_pushed {s t : State} {b : Byte} (h : step s = .next t) (hb : s.nextInput.pushed = some b) :
    t.buf = writeByte s.buf s.cnt b := by
  obtain ⟨_, ht⟩ | ⟨hc, ht⟩ := step_of_pushed h hb
  · simp [ht]
  · simp [ht, hc]

theorem step_rcrc {s t : State} (h : step s = .next t) :
    t.rcrc =
      if s.nextInput.isRst || s.nextInput.hasOp 0b01 || s.completesNext then 0xFFFF
      else match s.nextInput.pushed with
        | some b => crc16Byte s.rcrc b
        | none => s.rcrc := by
  cases step_effect h with
  | reset hrst hpush ht => simp [hrst, ht, crcInit]
  | clear hrst hclear hpush ht => simp [hclear, ht, crcInit]
  | capture b hrst hclear hpush hc ht => simp [hrst, hclear, hpush, State.completesNext_of_below hc, ht]
  | complete b hrst hclear hpush hc ht => simp [State.completesNext_of_pushed_last hpush hc, ht, crcInit]
  | keep hrst hclear hpush ht =>
    rw [ht]
    simp [hrst, hclear, hpush, State.completesNext_of_pushed_none hpush]

/-- A capture that starts anew is the CRC of no byte. -/
theorem captureInv_of_restarted {s : State} (hcnt : s.cnt = 0) (hrcrc : s.rcrc = crcInit) : s.CaptureInv := by
  simp [State.CaptureInv, hcnt, hrcrc]

/-- The byte captured joins both the bytes of BUF and the CRC of them. -/
theorem captureInv_captureByte {s : State} (b : Byte) (hc : s.cnt < 63) (hinv : s.CaptureInv) :
    (s.captureByte b).CaptureInv := by
  have hsucc : (s.cnt + 1).toNat = s.cnt.toNat + 1 := by bv_omega
  simp only [State.CaptureInv, State.captureByte_rcrc, State.captureByte_buf, State.captureByte_cnt] at hinv ⊢
  rw [hsucc, take_writeByte_succ, crc16From_snoc, ← hinv]

theorem captureInv_takeInput {s : State} (hinv : s.CaptureInv) : s.takeInput.2.CaptureInv := by
  simpa [State.CaptureInv] using hinv

theorem step_captureInv {s t : State} (hinv : s.CaptureInv) (h : step s = .next t) : t.CaptureInv := by
  cases step_effect h with
  | reset hrst hpush ht => exact captureInv_of_restarted (by simp [ht]) (by simp [ht])
  | clear hrst hclear hpush ht => exact captureInv_of_restarted (by simp [ht]) (by simp [ht])
  | capture b hrst hclear hpush hc ht =>
    rw [ht]
    exact captureInv_captureByte b (by simpa using hc) (captureInv_takeInput hinv)
  | complete b hrst hclear hpush hc ht => exact captureInv_of_restarted (by simp [ht]) (by simp [ht])
  | keep hrst hclear hpush ht =>
    rw [ht]
    exact captureInv_takeInput hinv

/-! ## OVALID and SEQ: the output frame -/

/-- The output registers are the same. -/
structure SameOutput (s t : State) : Prop where
  ofr : t.ofr = s.ofr
  ocrc : t.ocrc = s.ocrc
  ovalid : t.ovalid = s.ovalid
  seq : t.seq = s.seq

/-- The output registers change at a `rst` edge and at a completion, and at no other step. -/
theorem step_output_cases {s t : State} (h : step s = .next t) :
    (s.nextInput.isRst = true ∧ t = s.takeInput.2.resetEdge) ∨
    (s.nextInput.isRst = false ∧ s.completesNext = true ∧
      ∃ b, s.nextInput.pushed = some b ∧ s.cnt = 63 ∧ t = s.takeInput.2.completeFrame b) ∨
    (s.nextInput.isRst = false ∧ s.completesNext = false ∧ SameOutput s t) := by
  cases step_effect h with
  | reset hrst hpush ht => exact .inl ⟨hrst, ht⟩
  | clear hrst hclear hpush ht =>
    exact .inr (.inr ⟨hrst, State.completesNext_of_pushed_none hpush, by constructor <;> simp [ht]⟩)
  | capture b hrst hclear hpush hc ht =>
    exact .inr (.inr ⟨hrst, State.completesNext_of_below hc, by constructor <;> simp [ht]⟩)
  | complete b hrst hclear hpush hc ht =>
    exact .inr (.inl ⟨hrst, State.completesNext_of_pushed_last hpush hc, b, hpush, hc, ht⟩)
  | keep hrst hclear hpush ht =>
    exact .inr (.inr ⟨hrst, State.completesNext_of_pushed_none hpush, by rw [ht]; constructor <;> simp⟩)

theorem step_ovalid {s t : State} (h : step s = .next t) :
    t.ovalid = (!s.nextInput.isRst && (s.ovalid || s.completesNext)) := by
  obtain ⟨hrst, ht⟩ | ⟨hrst, hdone, b, _, _, ht⟩ | ⟨hrst, hdone, hsame⟩ := step_output_cases h
  · simp [hrst, ht]
  · simp [hrst, hdone, ht]
  · simp [hrst, hdone, hsame.ovalid]

theorem step_seq {s t : State} (h : step s = .next t) :
    t.seq.toNat =
      if s.nextInput.isRst then 0 else if s.completesNext then (s.seq.toNat + 1) % 256 else s.seq.toNat := by
  obtain ⟨hrst, ht⟩ | ⟨hrst, hdone, b, _, _, ht⟩ | ⟨hrst, hdone, hsame⟩ := step_output_cases h
  · simp [hrst, ht]
  · simp [hrst, hdone, ht]
  · simp [hrst, hdone, hsame.seq]

/-- After a step that leaves OVALID = 1 the output frame is the one before it or the one just completed. -/
theorem step_output_whole {s t : State} (h : step s = .next t) (hvalid : t.ovalid = true) :
    (s.ovalid = true ∧ t.ofr = s.ofr ∧ t.ocrc = s.ocrc) ∨
    ((∀ j < 63, frameByte t.ofr j = frameByte s.buf j) ∧
      ∃ b, s.nextInput.pushed = some b ∧ s.cnt = 63 ∧ frameByte t.ofr 63 = b ∧ t.ocrc = crc16Byte s.rcrc b) := by
  obtain ⟨_, ht⟩ | ⟨_, _, b, hpush, hc, ht⟩ | ⟨_, _, hsame⟩ := step_output_cases h
  · simp [ht] at hvalid
  · have hofr : t.ofr = writeByte s.buf 63 b := by simp [ht]
    refine .inr ⟨fun j hj => ?_, b, hpush, hc, ?_, by simp [ht]⟩
    · rw [hofr]
      exact frameByte_writeByte_other _ 63 _ j (Nat.ne_of_lt hj)
    · rw [hofr]
      exact frameByte_writeByte_same _ 63 _
  · exact .inl ⟨hsame.ovalid ▸ hvalid, hsame.ofr, hsame.ocrc⟩

theorem histogramFrame_isSome (s : State) : (histogramFrame s).isSome = s.ovalid := by
  cases hv : s.ovalid <;> simp [histogramFrame, hv]

/-! ## ERR_ILL -/

theorem step_errIll {s t : State} (h : step s = .next t) :
    t.errIll = (!s.nextInput.isRst && (s.errIll || s.nextInput.hasOp 0b11)) := by
  cases step_inversion h with
  | rst c hi ht => simp [hi, ht]
  | nop c hi hop ht => simp [hi, hop, ht]
  | clear c hi hop ht => simp [hi, hop, ht]
  | pushBelow c hi hop hc ht => simp [hi, hop, ht]
  | pushLast c hi hop hc ht => simp [hi, hop, ht]
  | illegal c hi hop ht => simp [hi, hop, ht]
  | read a hi w hexec ht => simp [hi, ht]

/-! ## STATUS: the word as a number, and each field as a slice of it -/

theorem toNat_append_eq_add {m n : Nat} (x : BitVec m) (y : BitVec n) :
    (x ++ y).toNat = x.toNat * 2 ^ n + y.toNat := by
  rw [BitVec.toNat_append, ← Nat.shiftLeft_add_eq_or_of_lt y.isLt, Nat.shiftLeft_eq]

theorem statusWord_toNat (s : State) :
    (statusWord s).toNat = s.cnt.toNat * 2 ^ 16 + s.seq.toNat * 2 ^ 8 + s.errIll.toNat * 2 + s.ovalid.toNat := by
  have he := s.errIll.toNat_le
  have ho := s.ovalid.toNat_le
  simp only [statusWord, zext32, BitVec.toNat_setWidth, toNat_append_eq_add, BitVec.toNat_ofBool, BitVec.toNat_zero]
  omega

/-- A slice of STATUS is the field that a quotient and a remainder of its number give. -/
theorem statusWord_slice {s : State} {start len : Nat} {field : BitVec len}
    (h : s.errIll.toNat ≤ 1 → s.ovalid.toNat ≤ 1 →
      (s.cnt.toNat * 2 ^ 16 + s.seq.toNat * 2 ^ 8 + s.errIll.toNat * 2 + s.ovalid.toNat) / 2 ^ start % 2 ^ len =
        field.toNat) :
    (statusWord s).extractLsb' start len = field := by
  apply BitVec.eq_of_toNat_eq
  rw [BitVec.extractLsb'_toNat, statusWord_toNat, Nat.shiftRight_eq_div_pow, h s.errIll.toNat_le s.ovalid.toNat_le]

section

variable (s : State)

theorem statusWord_ovalid : (statusWord s).extractLsb' 0 1 = BitVec.ofBool s.ovalid :=
  statusWord_slice fun he ho => by simp only [BitVec.toNat_ofBool]; omega

theorem statusWord_errIll : (statusWord s).extractLsb' 1 1 = BitVec.ofBool s.errIll :=
  statusWord_slice fun he ho => by simp only [BitVec.toNat_ofBool]; omega

theorem statusWord_reserved_low : (statusWord s).extractLsb' 2 6 = 0#6 :=
  statusWord_slice fun he ho => by simp only [BitVec.toNat_zero]; omega

theorem statusWord_seq : (statusWord s).extractLsb' 8 8 = s.seq := statusWord_slice fun he ho => by omega

theorem statusWord_cnt : (statusWord s).extractLsb' 16 6 = s.cnt := statusWord_slice fun he ho => by omega

theorem statusWord_reserved_high : (statusWord s).extractLsb' 22 10 = 0#10 :=
  statusWord_slice fun he ho => by simp only [BitVec.toNat_zero]; omega

end

/-- A bit is what the slice of width one at it holds. -/
theorem getLsbD_of_slice {w : Word} {i : Nat} {b : Bool} (h : w.extractLsb' i 1 = BitVec.ofBool b) :
    w.getLsbD i = b := by
  have hbit := congrArg (BitVec.getLsbD · 0) h
  simpa using hbit

/-! ## The statements -/

/-- Settles O20: CNT's exact next value, and its slice of STATUS. -/
theorem cntCountsTheBytesOfTheCapture : Obligations.CntCountsTheBytesOfTheCapture := by
  refine ⟨fun s t h => step_cnt h, fun s b hb t h => ?_, statusWord_cnt, rfl⟩
  rw [step_writes_pushed h hb]
  exact frameByte_writeByte_same _ _ _

/-- Settles O21: RCRC's exact next value, and the capture invariant kept. -/
theorem rcrcIsTheRunningCrc : Obligations.RcrcIsTheRunningCrc :=
  ⟨fun _ _ h => step_rcrc h, fun _ _ hinv h => step_captureInv hinv h, fun _ => rfl, rfl⟩

/-- Settles O23: OVALID's exact next value, and the output frame kept or replaced whole. -/
theorem ovalidMeansACompleteFrame : Obligations.OvalidMeansACompleteFrame :=
  ⟨fun _ _ h => step_ovalid h, fun _ _ h hvalid => step_output_whole h hvalid,
    fun s => getLsbD_of_slice (statusWord_ovalid s), histogramFrame_isSome, rfl⟩

/-- Settles O24: SEQ's exact next value, and its slice of STATUS. -/
theorem seqCountsCompletions : Obligations.SeqCountsCompletions :=
  ⟨fun _ _ h => step_seq h, statusWord_seq, rfl⟩

/-- Settles O25: ERR_ILL's exact next value, and its bit of STATUS. -/
theorem errIllIsStickyUntilReset : Obligations.ErrIllIsStickyUntilReset :=
  ⟨fun _ _ h => step_errIll h, fun s => getLsbD_of_slice (statusWord_errIll s), rfl⟩

/-- Settles O28: the six slices of STATUS tile the word. -/
theorem statusShowsItsFields : Obligations.StatusShowsItsFields :=
  ⟨rfl, fun _ => rfl,
    fun s => ⟨statusWord_ovalid s, statusWord_errIll s, statusWord_reserved_low s, statusWord_seq s, statusWord_cnt s,
      statusWord_reserved_high s⟩,
    rfl, rfl, rfl, rfl⟩

/-- Settles O29: RD_RUNCRC is not gated. -/
theorem runcrcShowsTheRunningCrc : Obligations.RuncrcShowsTheRunningCrc :=
  ⟨rfl, fun _ => rfl⟩

end Sys2Proof.Machine
end

section
/-! PROOF. Reads at the ports, 20_memory.md: the statement O36. -/

namespace Sys2Proof.Machine

open Sys2Proof

/-! ## A read returns READ of its address -/

/-- A meaning that gates its word agrees with READ, whose line for OVALID = 0 comes before the line of that word. -/
theorem exec_read_of_gated {a : ReadAddr} {s : State} {w : Word}
    (hexec : exec (decodeRead a) s = .next (s.returnWord (gate s w)))
    (hread : readPort a s = if s.ovalid = false then 0x00000000 else w) :
    exec (decodeRead a) s = .next (s.returnWord (readPort a s)) := by
  have hgate : readPort a s = gate s w := by cases hv : s.ovalid <;> simp [hread, gate, hv]
  rw [hexec, hgate]

/-- The gated addresses below STATUS: RD_BIN to RD_CRC. -/
theorem exec_read_below_status {a : ReadAddr} (s : State) (h : a ≤ 0x20) :
    exec (decodeRead a) s = .next (s.returnWord (readPort a s)) := by
  obtain ⟨k, rfl⟩ : ∃ k : Fin 33, a = BitVec.ofNat 6 k := by revert a; decide
  fin_cases k <;> exact exec_read_of_gated rfl rfl

/-- The addresses that nothing gates: STATUS, RUNCRC and the thirteen reserved ones. -/
theorem exec_read_ungated {a : ReadAddr} (s : State) (hlo : 0x21 ≤ a) (hhi : a ≤ 0x2F) :
    exec (decodeRead a) s = .next (s.returnWord (readPort a s)) := by
  obtain ⟨k, rfl⟩ : ∃ k : Fin 15, a = BitVec.ofNat 6 (0x21 + k) := by revert a; decide
  fin_cases k <;> rfl

/-- The gated addresses above the reserved ones: RD_RAW. -/
theorem exec_read_raw {a : ReadAddr} (s : State) (h : 0x30 ≤ a) :
    exec (decodeRead a) s = .next (s.returnWord (readPort a s)) := by
  obtain ⟨k, rfl⟩ : ∃ k : Fin 16, a = BitVec.ofNat 6 (0x30 + k) := by revert a; decide
  fin_cases k <;> exact exec_read_of_gated rfl rfl

/-- The read of every address returns READ of it (41_frame_decode.md R100). -/
theorem exec_read (a : ReadAddr) (s : State) :
    exec (decode (.read a)) s = .next (s.returnWord (readPort a s)) := by
  have blocks : a ≤ 0x20 ∨ (0x21 ≤ a ∧ a ≤ 0x2F) ∨ 0x30 ≤ a := by bv_omega
  obtain h | ⟨hlo, hhi⟩ | h := blocks
  · exact exec_read_below_status s h
  · exact exec_read_ungated s hlo hhi
  · exact exec_read_raw s h

/-! ## Reads at the ports -/

/-- READ looks at neither the word that a read returned nor the inputs to come. -/
@[simp] theorem readPort_rdata_inputs (a : ReadAddr) (s : State) (w : Word) (l : List PortInput) :
    readPort a { s with rdata := w, inputs := l } = readPort a s := rfl

/-- The step on a read. -/
theorem step_read {s : State} {a : ReadAddr} {rest : List PortInput} (h : s.inputs = .word (.read a) :: rest) :
    step s = .next { s with rdata := readPort a s, inputs := rest } := by
  simp only [step, State.takeInput_cons s _ rest h, exec_read]
  rfl

/-- Settles O36, by induction on the number of reads: each takes one input and leaves READ as it was. -/
theorem readsHaveNoSideEffects : Obligations.ReadsHaveNoSideEffects := by
  intro n a s rest h
  induction n generalizing s with
  | zero => exact run_succ 0 (step_read h)
  | succ n ih =>
    have hnext := ih { s with rdata := readPort a s, inputs := List.replicate (n + 1) (.word (.read a)) ++ rest } rfl
    rw [readPort_rdata_inputs] at hnext
    exact (run_succ (n + 1) (step_read h)).trans hnext

end Sys2Proof.Machine
end

section
/-! PROOF. Words and operands, 30_encoding.md: the statements O1, O3 and O37. -/

namespace Sys2Proof

/-! ## Command words: `op` above `din`, and the mask that keeps `op` -/

theorem command_eq_op_append_din (cmd : CmdWord) : cmd = cmd.extractLsb' 8 2 ++ cmd.extractLsb' 0 8 := by
  have hjoin := BitVec.extractLsb'_append_extractLsb'_eq_extractLsb' (x := cmd) (len₂ := 2) (show 8 = 0 + 8 from rfl)
  rw [hjoin, BitVec.extractLsb'_eq_self]

theorem command_masked (cmd : CmdWord) : cmd &&& 0x300 = cmd.extractLsb' 8 2 ++ 0#8 := by
  have hmask : (0x300 : CmdWord) = BitVec.allOnes 2 ++ 0#8 := rfl
  conv_lhs => rw [command_eq_op_append_din cmd, hmask]
  rw [BitVec.and_append, BitVec.and_allOnes, BitVec.and_zero]

/-- A word under the mask of `op` is the pattern of a row exactly when its `op` is that row's. -/
theorem command_masked_eq_iff (cmd : CmdWord) (op : BitVec 2) :
    cmd &&& 0x300 = op ++ 0#8 ↔ cmd.extractLsb' 8 2 = op := by
  rw [command_masked, BitVec.append_left_inj]

section

variable {cmd : CmdWord}

theorem decode_command_nop (hop : cmd.extractLsb' 8 2 = 0b00#2) : decode (.command cmd) = .nop := if_pos hop

theorem decode_command_clear (hop : cmd.extractLsb' 8 2 = 0b01#2) : decode (.command cmd) = .clear := by
  simp [decode, decodeCommand, hop]

theorem decode_command_push (hop : cmd.extractLsb' 8 2 = 0b10#2) :
    decode (.command cmd) = .push (cmd.extractLsb' 0 8) := by
  simp [decode, decodeCommand, hop]

theorem decode_command_illegal (hop : cmd.extractLsb' 8 2 = 0b11#2) : decode (.command cmd) = .illegal := by
  simp [decode, decodeCommand, hop]

end

/-! The same with the word written as `op` and `din`. -/

section

variable (din : Byte)

theorem decode_nop_append : decode (.command (0b00#2 ++ din)) = .nop :=
  decode_command_nop BitVec.extractLsb'_append_eq_left

theorem decode_clear_append : decode (.command (0b01#2 ++ din)) = .clear :=
  decode_command_clear BitVec.extractLsb'_append_eq_left

theorem decode_push_append : decode (.command (0b10#2 ++ din)) = .push din := by
  rw [decode_command_push BitVec.extractLsb'_append_eq_left, BitVec.extractLsb'_append_eq_right]

theorem decode_illegal_append : decode (.command (0b11#2 ++ din)) = .illegal :=
  decode_command_illegal BitVec.extractLsb'_append_eq_left

end

/-! ## Read addresses: the index is a slice -/

section

variable {a : ReadAddr}

theorem decode_read_rdBin (h : a.extractLsb' 4 2 = 0b00#2) :
    decode (.read a) = .rdBin (a.extractLsb' 0 4).toNat := if_pos h

/-- The addresses of RD_TOF lie in the block `raddr[5:4] = 01`, and so apart from those of RD_BIN and RD_RAW. -/
theorem block_of_tof (h : a.extractLsb' 2 4 = 0b0100#4) : a.extractLsb' 4 2 = 0b01#2 := by
  revert a
  decide

theorem decode_read_rdTof (h : a.extractLsb' 2 4 = 0b0100#4) :
    decode (.read a) = .rdTof (a.extractLsb' 0 2).toNat := by
  simp [decode, decodeRead, block_of_tof h, h]

theorem decode_read_rdRaw (h : a.extractLsb' 4 2 = 0b11#2) :
    decode (.read a) = .rdRaw (a.extractLsb' 0 4).toNat := by
  have hnotTof : a.extractLsb' 2 4 ≠ 0b0100#4 := fun htof => by simp [block_of_tof htof] at h
  simp [decode, decodeRead, h, hnotTof]

end

end Sys2Proof

namespace Sys2Proof.Machine

open Sys2Proof

/-- Both cases of PUSH store the byte as it is at index CNT and feed it as it is to the CRC, which is RCRC while the
capture goes on and OCRC when it completes. -/
theorem exec_push_uses_byte (s : State) (b : Byte) :
    ∃ t, exec (.push b) s = .next t ∧ t.buf = writeByte s.buf s.cnt b ∧
      (if s.cnt < 63 then t.rcrc else t.ocrc) = crc16Byte s.rcrc b := by
  by_cases hc : s.cnt < 63
  · exact ⟨_, exec_push_below b hc, rfl, if_pos hc⟩
  · have hlast : s.cnt = 63 := (cnt_not_below_iff s).1 hc
    exact ⟨_, exec_push_last b hc, by rw [hlast, State.completeFrame_buf], if_neg hc⟩

/-- A reserved address is neither STATUS nor RUNCRC, and its line of READ stands before the gating (R64, R100). -/
theorem readPort_reserved {a : ReadAddr} (s : State) (hlo : 0x23 ≤ a) (hhi : a ≤ 0x2F) :
    readPort a s = 0x00000000 := by
  have hstatus : a ≠ 0x21 := by bv_omega
  have hruncrc : a ≠ 0x22 := by bv_omega
  rw [readPort, if_neg hstatus, if_neg hruncrc, if_pos ⟨hlo, hhi⟩]

/-- What the meanings of all thirteen reserved forms do. -/
theorem readReserved_next (s : State) : readReserved s = .next { s with rdata := 0 } := rfl

/-! ## The statements -/

/-- Settles O3: the operands of the command words, what PUSH does with its own, and the indices of the reads. -/
theorem operandsAreSlicesOfTheWord : Obligations.OperandsAreSlicesOfTheWord := by
  refine ⟨decode_push_append, fun s b => ?_, fun d d' => ⟨?_, ?_, ?_⟩,
    fun a => ⟨decode_read_rdBin, decode_read_rdTof, decode_read_rdRaw⟩⟩
  · obtain ⟨t, hexec, hbuf, hcrc⟩ := exec_push_uses_byte s b
    exact ⟨t, hexec, by rw [hbuf, frameByte_writeByte_same], hcrc⟩
  · rw [decode_nop_append, decode_nop_append]
  · rw [decode_clear_append, decode_clear_append]
  · rw [decode_illegal_append, decode_illegal_append]

/-- Settles O1: a pattern under the mask is a value of `op`, and the four values are all there are. -/
theorem everyCommandWordSelectsOneRow : Obligations.EveryCommandWordSelectsOneRow := by
  refine ⟨fun din => ⟨decode_nop_append din, decode_clear_append din, decode_push_append din,
    decode_illegal_append din⟩, fun cmd => ?_⟩
  have masked := command_masked_eq_iff cmd
  refine ⟨fun h => decode_command_nop ((masked 0b00#2).1 h), fun h => decode_command_clear ((masked 0b01#2).1 h),
    fun h => decode_command_push ((masked 0b10#2).1 h), fun h => decode_command_illegal ((masked 0b11#2).1 h), ?_⟩
  obtain ⟨hop, -⟩ | ⟨hop, -⟩ | ⟨hop, -⟩ | ⟨hop, -⟩ := decodeCommand_cases cmd
  · exact .inl ((masked 0b00#2).2 hop)
  · exact .inr (.inl ((masked 0b01#2).2 hop))
  · exact .inr (.inr (.inl ((masked 0b10#2).2 hop)))
  · exact .inr (.inr (.inr ((masked 0b11#2).2 hop)))

/-- Settles O37: by address through READ, and by form through the meaning they share. -/
theorem reservedAddressesReadZero : Obligations.ReservedAddressesReadZero := by
  refine ⟨fun a s hlo hhi => ?_, fun s => ?_⟩
  · rw [exec_read, readPort_reserved s hlo hhi]
    rfl
  · and_intros <;> exact readReserved_next s

end Sys2Proof.Machine
end

section
/-! PROOF. The capture commands, 40_capture.md: the statements O11 to O16. -/

namespace Sys2Proof.Machine

open Sys2Proof

/-! ## The output side: what a host sees of a frame -/

/-- Gated reads of states with the same configuration and the same output frame agree: past the lines of STATUS, RUNCRC
and the reserved addresses, READ looks at nothing else (41_frame_decode.md R100). -/
theorem readPort_gated_congr {s u : State} {a : ReadAddr} (hgated : gatedAddr a = true) (hconfig : u.config = s.config)
    (hovalid : u.ovalid = s.ovalid) (hofr : u.ofr = s.ofr) (hocrc : u.ocrc = s.ocrc) :
    readPort a u = readPort a s := by
  have hrange : a ≤ 0x20 ∨ 0x30 ≤ a := by simpa [gatedAddr] using hgated
  have hstatus : a ≠ 0x21 := by bv_omega
  have hruncrc : a ≠ 0x22 := by bv_omega
  have hreserved : ¬ (0x23 ≤ a ∧ a ≤ 0x2F) := by bv_omega
  simp only [readPort, if_neg hstatus, if_neg hruncrc, if_neg hreserved, hconfig, hovalid, hofr, hocrc]

/-- A byte captured below index 63 leaves the exposed frame as it was. -/
@[simp] theorem histogramFrame_captureByte (b : Byte) (s : State) :
    histogramFrame (s.captureByte b) = histogramFrame s := rfl

/-! ## NOP -/

/-- The step on NOP takes the input and changes nothing else. -/
theorem step_nop {s : State} {rest : List PortInput} (h : s.inputs = asm .nop :: rest) :
    step s = .next { s with inputs := rest } := by
  simp only [step, State.takeInput_cons s _ rest h]
  rfl

/-- The step with no command to give. -/
theorem step_idle {s : State} (h : s.inputs = []) : step s = .next s := by
  simp only [step, State.takeInput_nil s h]
  rfl

theorem run_idle (n : Nat) (s : State) (rest : List PortInput) (h : s.inputs = asmIdle n ++ rest) :
    Sys2Proof.core.run n s = .next { s with inputs := rest } := by
  induction n generalizing s with
  | zero =>
    obtain rfl : s.inputs = rest := h
    exact run_zero s
  | succ n ih =>
    exact (run_succ n (step_nop h)).trans (ih { s with inputs := asmIdle n ++ rest } rfl)

/-! ## CLEAR and the reserved command, where they have nothing to change -/

/-- Where CNT is 0, RCRC is the CRC of no byte. -/
theorem rcrc_of_captureInv_empty {s : State} (hinv : s.CaptureInv) (hcnt : s.cnt = 0) : s.rcrc = crcInit := by
  simpa [State.CaptureInv, hcnt] using hinv

theorem clearCapture_of_restarted {s : State} (hcnt : s.cnt = 0) (hrcrc : s.rcrc = crcInit) :
    s.clearCapture = s := by
  simp only [State.clearCapture, ← hcnt, ← hrcrc]

theorem recordIllegal_of_recorded {s : State} (h : s.errIll = true) : s.recordIllegal = s := by
  simp only [State.recordIllegal, ← h]

/-! ## PUSH -/

/-- The last byte written leaves the 63 before it. -/
theorem frameByte_writeByte_last_before (f : Frame) (b : Byte) (j : Nat) (h : j < 63) :
    frameByte (writeByte f 63 b) j = frameByte f j :=
  frameByte_writeByte_other f 63 b j (Nat.ne_of_lt h)

theorem frameByte_writeByte_last (f : Frame) (b : Byte) : frameByte (writeByte f 63 b) 63 = b :=
  frameByte_writeByte_same f 63 b

/-- Below index 63 CNT counts without wrapping. -/
theorem captureByte_cnt_toNat {s : State} (b : Byte) (h : s.cnt < 63) :
    (s.captureByte b).cnt.toNat = s.cnt.toNat + 1 := by
  rw [State.captureByte_cnt]
  bv_omega

/-- The CRC of a whole frame is the fold over all its bytes. -/
theorem crc16_whole (f : Frame) : crc16 f 64 = crc16From crcInit f.toList := by
  rw [crc16, List.take_of_length_le (by simp)]

/-- The completing PUSH: RCRC, the CRC of the first 63 bytes, takes the last one in. -/
theorem completeFrame_ocrc_eq_crc16 {s : State} (b : Byte) (hcnt : s.cnt = 63) (hinv : s.CaptureInv) :
    (s.completeFrame b).ocrc = crc16 (s.completeFrame b).ofr 64 := by
  have hrcrc : s.rcrc = crc16From crcInit (s.buf.toList.take 63) := by simpa [State.CaptureInv, hcnt] using hinv
  rw [State.completeFrame_ocrc, State.completeFrame_ofr, crc16_whole, toList_writeByte_last, crc16From_snoc, hrcrc]

/-! ## The statements -/

/-- Settles O11, the last clause by induction on the number of NOPs. -/
theorem nopWritesNothing : Obligations.NopWritesNothing :=
  ⟨decode_nop_append, fun _ => rfl, fun _ h => step_idle h, run_idle⟩

/-- Settles O13: the two cases are `captureByte` and `completeFrame`, which write one byte of BUF each. -/
theorem pushFollowsItsPseudocode : Obligations.PushFollowsItsPseudocode := by
  refine ⟨decode_push_append, fun s b hc => ?below, fun s b hc => ?last, ?fromReset⟩
  case below =>
    exact ⟨_, exec_push_below b hc, frameByte_writeByte_same _ _ _, frameByte_writeByte_other _ _ _, rfl⟩
  case last =>
    exact ⟨_, exec_push_last b hc, frameByte_writeByte_last_before _ _, frameByte_writeByte_last _ _,
      frameByte_writeByte_last _ _, frameByte_writeByte_other _ 63 _, rfl⟩
  case fromReset =>
    exact ⟨_, exec_push_below 0x00 (by decide), frameByte_writeByte_same _ 0 _, rfl, by decide⟩

/-- Settles O14: what `captureByte` writes, and that nothing a host can see of the output depends on it. -/
theorem pushBelowTheLastByteExtendsTheCapture : Obligations.PushBelowTheLastByteExtendsTheCapture := by
  intro s b hc
  refine ⟨_, exec_push_below b hc, frameByte_writeByte_same _ _ _, captureByte_cnt_toNat b hc, rfl, rfl, rfl, rfl,
    rfl, histogramFrame_captureByte b s, fun a hgated => readPort_gated_congr hgated rfl rfl rfl rfl,
    fun pushed hpushed => ?extended⟩
  case extended =>
    rw [captureByte_cnt_toNat b hc, State.captureByte_buf, take_writeByte_succ, hpushed]

/-- Settles O15: what `completeFrame` writes, with the CRC of the whole frame from the capture invariant. -/
theorem pushOfTheLastByteCompletesTheFrame : Obligations.PushOfTheLastByteCompletesTheFrame := by
  intro s b hcnt
  refine ⟨_, exec_push_last b ((cnt_not_below_iff s).2 hcnt), frameByte_writeByte_last_before _ _,
    frameByte_writeByte_last _ _, rfl, completeFrame_ocrc_eq_crc16 b hcnt, rfl, ?seq, rfl, rfl,
    frameByte_writeByte_last _ _, fun u hconfig hovalid hofr hocrc a hgated => ?reads⟩
  case seq => rw [State.completeFrame_seq, BitVec.toNat_add]; rfl
  case reads => exact (readPort_gated_congr hgated hconfig hovalid hofr hocrc).symm

/-- Settles O12: `clearCapture` writes no register that a gated read looks at, and nothing new where the capture is
empty already. -/
theorem clearRestartsTheCapture : Obligations.ClearRestartsTheCapture := by
  refine ⟨decode_clear_append, fun _ => rfl, fun s a hgated => readPort_gated_congr hgated rfl rfl rfl rfl,
    fun s hinv hcnt => ?_⟩
  have hsame := clearCapture_of_restarted hcnt (rcrc_of_captureInv_empty hinv hcnt)
  exact congrArg Host.Outcome.next hsame

/-- Settles O16: `recordIllegal` writes ERR_ILL alone, and ERR_ILL's exact next value makes it sticky. -/
theorem reservedCommandSetsErrIllOnly : Obligations.ReservedCommandSetsErrIllOnly := by
  refine ⟨decode_illegal_append, fun _ => rfl, fun s h => congrArg Host.Outcome.next (recordIllegal_of_recorded h),
    fun s t hset hrst hstep => ?sticky, ⟨_, rfl, by decide⟩⟩
  case sticky => simp [step_errIll hstep, hset, hrst]

end Sys2Proof.Machine
end

section
/-! PROOF. The reads of the frame's fields, 41_frame_decode.md sections 1 to 3: the statements O35, O38, O39, O41 to
O44, O46, O47 and O50. -/

namespace Sys2Proof

/-! The address of an indexed read is its block and the index below it (30_encoding.md R63). -/

theorem decode_rdBin_append (i : BitVec 4) : decode (.read (0b00#2 ++ i)) = .rdBin i.toNat := by
  rw [decode_read_rdBin BitVec.extractLsb'_append_eq_left, BitVec.extractLsb'_append_eq_right]

theorem decode_rdTof_append (j : BitVec 2) : decode (.read (0b0100#4 ++ j)) = .rdTof j.toNat := by
  rw [decode_read_rdTof BitVec.extractLsb'_append_eq_left, BitVec.extractLsb'_append_eq_right]

theorem decode_rdRaw_append (k : BitVec 4) : decode (.read (0b11#2 ++ k)) = .rdRaw k.toNat := by
  rw [decode_read_rdRaw BitVec.extractLsb'_append_eq_left, BitVec.extractLsb'_append_eq_right]

end Sys2Proof

namespace Sys2Proof.Machine

open Sys2Proof

/-! ## Fields of a frame as bytes -/

/-- Assembly in 16 bits puts the one byte above the other (R114). -/
theorem assemble16_eq_append (msb lsb : Byte) : assemble16 msb lsb = msb ++ lsb := by
  rw [assemble16, ← BitVec.setWidth_append_eq_shiftLeft_setWidth_or, BitVec.setWidth_eq]

theorem assemble16_toNat (msb lsb : Byte) : (assemble16 msb lsb).toNat = 256 * msb.toNat + lsb.toNat := by
  rw [assemble16_eq_append, toNat_append_eq_add]
  omega

/-- `le16` is the assembly with the later byte as the high one. -/
theorem le16_eq_assemble16 (f : Frame) (i : Nat) : le16 f i = assemble16 (frameByte f (i + 1)) (frameByte f i) :=
  (assemble16_eq_append _ _).symm

/-- Byte 43 is the high one under LE. -/
theorem humiditySignal_le (f : Frame) : humiditySignal .le f = frameByte f 43 ++ frameByte f 42 :=
  assemble16_eq_append _ _

/-- Byte 42 is the high one under REF. -/
theorem humiditySignal_ref (f : Frame) : humiditySignal .ref f = frameByte f 42 ++ frameByte f 43 :=
  assemble16_eq_append _ _

/-- A 32-bit field holds each of its four bytes, the first lowest. -/
theorem le32_byte (f : Frame) (i j : Nat) (h : j < 4) : (le32 f i).extractLsb' (8 * j) 8 = frameByte f (i + j) := by
  apply BitVec.eq_of_toNat_eq
  simp only [le32, BitVec.extractLsb'_toNat, toNat_append_eq_add, Nat.shiftRight_eq_div_pow]
  obtain rfl | hpos := Nat.eq_zero_or_pos j
  · rw [Nat.add_zero i]
    omega
  · interval_cases j <;> omega

/-- Byte i is byte i % 4 of raw word i / 4 (R116). -/
theorem rawWord_byte (f : Frame) (i : Nat) : (rawWord f (i / 4)).extractLsb' (8 * (i % 4)) 8 = frameByte f i := by
  rw [rawWord, le32_byte f _ _ (Nat.mod_lt i (by decide)), Nat.div_add_mod]

/-- Frames with the same sixteen raw words are the same. -/
theorem frame_eq_of_rawWords {f g : Frame} (h : ∀ k < 16, rawWord f k = rawWord g k) : f = g := by
  refine frame_ext f g fun i hi => ?_
  have hword : rawWord f (i / 4) = rawWord g (i / 4) := h _ (by omega)
  rw [← rawWord_byte f i, hword, rawWord_byte]

/-! ## The read forms -/

/-- The gating of R100 and the template of the read forms say the same. -/
theorem readsGated_of_exec {i : Instr} {s : State} {w : Word} (h : exec i s = .next (s.returnWord (gate s w))) :
    ReadsGated i s w := h

theorem readsGated_rdBin (s : State) {i : Nat} (h : i < 16) : ReadsGated (.rdBin i) s (zext32 (bin s.ofr i)) :=
  readsGated_of_exec (if_pos (decide_eq_true h))

theorem readsGated_rdTof (s : State) {j : Nat} (h : j < 4) :
    ReadsGated (.rdTof j) s (zext32 (timeOfFlight s.ofr j)) :=
  readsGated_of_exec (if_pos (decide_eq_true h))

theorem readsGated_rdRaw (s : State) {k : Nat} (h : k < 16) : ReadsGated (.rdRaw k) s (rawWord s.ofr k) :=
  readsGated_of_exec (if_pos (decide_eq_true h))

theorem readsGated_rdTsig (s : State) : ReadsGated .rdTsig s (zext32 (tempSignal s.ofr)) := readsGated_of_exec rfl

theorem readsGated_rdTempc (s : State) : ReadsGated .rdTempc s (tempCelsius (tempSignal s.ofr)) :=
  readsGated_of_exec rfl

theorem readsGated_rdHsig (s : State) : ReadsGated .rdHsig s (zext32 (humiditySignal s.config.humOrder s.ofr)) :=
  readsGated_of_exec rfl

theorem readsGated_rdRh (s : State) :
    ReadsGated .rdRh s (relativeHumidity (humiditySignal s.config.humOrder s.ofr)) := readsGated_of_exec rfl

theorem readsGated_rdRglitch (s : State) : ReadsGated .rdRglitch s (zext32 (rejectGlitch s.ofr)) :=
  readsGated_of_exec rfl

theorem readsGated_rdRlong (s : State) : ReadsGated .rdRlong s (zext32 (rejectLong s.ofr)) := readsGated_of_exec rfl

theorem readsGated_rdFlow (s : State) : ReadsGated .rdFlow s (sampleFlowRate s.ofr) := readsGated_of_exec rfl

theorem readsGated_rdPeriod (s : State) : ReadsGated .rdPeriod s (samplingPeriod s.ofr) := readsGated_of_exec rfl

theorem readsGated_rdPm1 (s : State) : ReadsGated .rdPm1 s (pmEnv s.ofr 0) := readsGated_of_exec rfl

theorem readsGated_rdPm25 (s : State) : ReadsGated .rdPm25 s (pmEnv s.ofr 1) := readsGated_of_exec rfl

theorem readsGated_rdPm10 (s : State) : ReadsGated .rdPm10 s (pmEnv s.ofr 2) := readsGated_of_exec rfl

/-- While a frame is exposed a gated read returns its word. -/
theorem exec_of_readsGated {i : Instr} {s : State} {w : Word} (h : ReadsGated i s w) (hvalid : s.ovalid = true) :
    exec i s = .next { s with rdata := w } := by
  rw [h, if_pos hvalid]

/-! ## The statements -/

/-- Settles O35: each address's meaning returns READ of it. -/
theorem everyReadReturnsREAD : Obligations.EveryReadReturnsREAD := exec_read

/-- Settles O47: the raw words, and each byte of the frame found again in one of them. -/
theorem rdRawReturnsTheFrame : Obligations.RdRawReturnsTheFrame :=
  ⟨decode_rdRaw_append, fun s _ hk => readsGated_rdRaw s hk, fun _ _ h => frame_eq_of_rawWords h⟩

/-- Settles O38: the bin is the two bytes at 2i, so bytes 0x34 and 0x12 read as 0x1234. -/
theorem rdBinReturnsTheBin : Obligations.RdBinReturnsTheBin := by
  refine ⟨decode_rdBin_append, fun s _ hi => readsGated_rdBin s hi, fun s i hi hvalid hlow hhigh => ?vector⟩
  case vector =>
    rw [exec_of_readsGated (readsGated_rdBin s hi) hvalid, bin, le16, hlow, hhigh]
    rfl

/-- Settles O39: the byte at 32 + j. -/
theorem rdTofReturnsTheTimeOfFlight : Obligations.RdTofReturnsTheTimeOfFlight :=
  ⟨decode_rdTof_append, fun s _ hj => readsGated_rdTof s hj⟩

/-- Settles O41: `tempSignal` does not look at HUM_ORDER. -/
theorem rdTsigReturnsTheTemperatureSignal : Obligations.RdTsigReturnsTheTemperatureSignal :=
  ⟨rfl, readsGated_rdTsig⟩

/-- Settles O42: HUM_ORDER selects which of bytes 42 and 43 is the high one. -/
theorem rdHsigFollowsHumOrder : Obligations.RdHsigFollowsHumOrder := by
  refine ⟨rfl, fun s horder => ?le, fun s horder => ?ref, fun f hequal => ?agree⟩
  case le => simpa only [horder, humiditySignal_le, zext32] using readsGated_rdHsig s
  case ref => simpa only [horder, humiditySignal_ref, zext32] using readsGated_rdHsig s
  case agree => rw [humiditySignal_le, humiditySignal_ref, hequal]

/-- Settles O43: bytes 48 and 49. -/
theorem rejectCountersReturnTheirBytes : Obligations.RejectCountersReturnTheirBytes :=
  ⟨rfl, rfl, readsGated_rdRglitch, readsGated_rdRlong⟩

/-- Settles O44: each pattern is the four bytes at its offset. -/
theorem floatFieldsPassThrough : Obligations.FloatFieldsPassThrough :=
  ⟨rfl, rfl, rfl, rfl, rfl, fun s =>
    ⟨readsGated_rdFlow s, readsGated_rdPeriod s, readsGated_rdPm1 s, readsGated_rdPm25 s, readsGated_rdPm10 s⟩⟩

/-- Settles O46: the signal of HUM_ORDER, converted. -/
theorem rdRhConvertsTheSignal : Obligations.RdRhConvertsTheSignal := by
  refine ⟨rfl, fun s horder => ?le, fun s horder => ?ref, fun signal => ?exact⟩
  case le => simpa only [horder, humiditySignal_le, relativeHumidity] using readsGated_rdRh s
  case ref => simpa only [horder, humiditySignal_ref, relativeHumidity] using readsGated_rdRh s
  case exact => push_cast; rfl

/-- Settles O50: every 16-bit field is `le16` or HUM_ORDER's pair, and both are the assembly. -/
theorem sixteenBitFieldsAreAssembledMsbFirst : Obligations.SixteenBitFieldsAreAssembledMsbFirst :=
  ⟨assemble16_toNat, fun f i => le16_eq_assemble16 f (2 * i), fun f => le16_eq_assemble16 f 40, fun _ => rfl,
    fun _ => rfl, fun f => le16_eq_assemble16 f 62⟩

end Sys2Proof.Machine
end

section
/-! PROOF. Rounding to binary32, 41_frame_decode.md R112, and RD_TEMPC: the statements O52 and O45. With `e` the binary
exponent of q, the multiples of `2^(e-23)` are the binary32 values from `2^e` on; rne32 rounds q to one of them, and
every other binary32 value is below `2^e` and so farther from q than `2^e` is. -/

namespace Sys2Proof.Machine

open Sys2Proof

/-! ## Rounding a rational to an integer, ties to even -/

/-- `r` is the integer nearest `t`, the even one of two. -/
structure RoundsHalfEven (r : ℤ) (t : ℚ) : Prop where
  near : |(r : ℚ) - t| ≤ 1 / 2
  tie : |(r : ℚ) - t| = 1 / 2 → Even r

namespace RoundsHalfEven

variable {r : ℤ} {t : ℚ}

theorem neg (h : RoundsHalfEven r t) : RoundsHalfEven (-r) (-t) := by
  have hdist : |((-r : ℤ) : ℚ) - -t| = |(r : ℚ) - t| := by
    rw [Int.cast_neg, neg_sub_neg, abs_sub_comm]
  exact ⟨hdist.trans_le h.near, fun htie => (h.tie (hdist.symm.trans htie)).neg⟩

/-- Another integer is at least one half away. -/
theorem half_le (h : RoundsHalfEven r t) {z : ℤ} (hz : z ≠ r) : 1 / 2 ≤ |(z : ℚ) - t| := by
  have hone : (1 : ℚ) ≤ |(z : ℚ) - r| := by exact_mod_cast Int.one_le_abs (sub_ne_zero.2 hz)
  have htriangle := abs_sub_le (z : ℚ) t r
  rw [abs_sub_comm t] at htriangle
  linarith [h.near]

theorem nearest (h : RoundsHalfEven r t) (z : ℤ) : |(r : ℚ) - t| ≤ |(z : ℚ) - t| := by
  by_cases hz : z = r
  · rw [hz]
  · exact h.near.trans (h.half_le hz)

theorem even_of_tie (h : RoundsHalfEven r t) {z : ℤ} (hz : z ≠ r) (heq : |(r : ℚ) - t| = |(z : ℚ) - t|) :
    Even r :=
  h.tie (le_antisymm h.near (heq ▸ h.half_le hz))

/-- The integer `k` away from 0 on the side of `t` bounds the distance. -/
theorem dist_le (h : RoundsHalfEven r t) {k : ℕ} (hk : (k : ℚ) ≤ |t|) : |(r : ℚ) - t| ≤ |t| - k := by
  obtain ht | ht := le_total 0 t
  · rw [abs_of_nonneg ht] at hk ⊢
    refine (h.nearest k).trans_eq ?_
    rw [Int.cast_natCast, abs_sub_comm, abs_of_nonneg (sub_nonneg.2 hk)]
  · rw [abs_of_nonpos ht] at hk ⊢
    refine (h.nearest (-k)).trans_eq ?_
    rw [Int.cast_neg, Int.cast_natCast, abs_of_nonneg (by linarith)]
    ring

/-- An integer that `t` reaches, the rounding reaches. -/
theorem int_le (h : RoundsHalfEven r t) {k : ℤ} (hk : (k : ℚ) ≤ t) : k ≤ r := by
  have hnear := (abs_le.1 h.near).1
  have hlt : (k : ℚ) < r + 1 := by linarith
  exact Int.lt_add_one_iff.1 (by exact_mod_cast hlt)

/-- An integer that `t` does not pass, the rounding does not pass. -/
theorem le_int (h : RoundsHalfEven r t) {k : ℤ} (hk : t ≤ k) : r ≤ k := by
  have hnear := (abs_le.1 h.near).2
  have hlt : (r : ℚ) < k + 1 := by linarith
  exact Int.lt_add_one_iff.1 (by exact_mod_cast hlt)

/-- The floor, where the rest is at most one half. -/
theorem down {k : ℤ} {rest : ℚ} (hpos : 0 ≤ rest) (hhalf : rest ≤ 1 / 2) (htie : rest = 1 / 2 → Even k) :
    RoundsHalfEven k (k + rest) := by
  have hdist : |(k : ℚ) - (k + rest)| = rest := by rw [sub_add_cancel_left, abs_neg, abs_of_nonneg hpos]
  exact ⟨hdist.trans_le hhalf, fun h => htie (hdist.symm.trans h)⟩

/-- The integer above the floor, where the rest is at least one half. -/
theorem up {k : ℤ} {rest : ℚ} (hhalf : 1 / 2 ≤ rest) (hone : rest ≤ 1) (htie : rest = 1 / 2 → Odd k) :
    RoundsHalfEven (k + 1) (k + rest) := by
  have hdist : |((k + 1 : ℤ) : ℚ) - (k + rest)| = 1 - rest := by
    rw [Int.cast_add, Int.cast_one, add_sub_add_left_eq_sub, abs_of_nonneg (sub_nonneg.2 hone)]
  exact ⟨by rw [hdist]; linarith, fun h => (htie (by linarith)).add_one⟩

end RoundsHalfEven

/-- The floor of `n/d`, or the next integer, as R112 chooses. -/
def roundHalfEven (n d : Nat) : Nat :=
  if d < 2 * (n % d) ∨ (2 * (n % d) = d ∧ n / d % 2 = 1) then n / d + 1 else n / d

theorem roundsHalfEven_roundHalfEven (n : Nat) {d : Nat} (hd : 0 < d) :
    RoundsHalfEven (roundHalfEven n d) ((n : ℚ) / d) := by
  have hd' : (0 : ℚ) < d := by exact_mod_cast hd
  have hsplit : (n : ℚ) / d = ((n / d : ℕ) : ℤ) + ((n % d : ℕ) : ℚ) / d := by
    rw [Int.cast_natCast, div_eq_iff hd'.ne', add_mul, div_mul_cancel₀ _ hd'.ne']
    exact_mod_cast (Nat.div_add_mod' n d).symm
  have hhalf_le : (1 : ℚ) / 2 ≤ ((n % d : ℕ) : ℚ) / d ↔ d ≤ 2 * (n % d) := by
    rw [div_le_div_iff₀ two_pos hd', one_mul, mul_comm]
    exact_mod_cast Iff.rfl
  have hle_half : ((n % d : ℕ) : ℚ) / d ≤ (1 : ℚ) / 2 ↔ 2 * (n % d) ≤ d := by
    rw [div_le_div_iff₀ hd' two_pos, one_mul, mul_comm]
    exact_mod_cast Iff.rfl
  have htie : ((n % d : ℕ) : ℚ) / d = (1 : ℚ) / 2 → 2 * (n % d) = d := fun h =>
    le_antisymm (hle_half.1 h.le) (hhalf_le.1 h.ge)
  rw [hsplit, roundHalfEven]
  split
  case isTrue hup =>
    rw [Nat.cast_succ]
    refine .up (hhalf_le.2 (by omega)) ?_ fun h => ?_
    · rw [div_le_one hd']
      exact_mod_cast (Nat.mod_lt n hd).le
    · have := htie h
      rw [Int.odd_iff]
      omega
  case isFalse hdown =>
    refine .down (by positivity) (hle_half.2 (by omega)) fun h => ?_
    have := htie h
    rw [Int.even_iff]
    omega

/-! ## The binary exponent of a fraction -/

theorem two_zpow_eq_div (e : ℤ) : (2 : ℚ) ^ e = 2 ^ e.toNat / 2 ^ (-e).toNat := by
  obtain ⟨k, rfl | rfl⟩ := e.eq_nat_or_neg <;> simp

/-- `2^e` is `2^23` units of the last bit. -/
theorem two_zpow_eq_units (e : ℤ) : (2 : ℚ) ^ e = (2 ^ 23 : ℕ) * 2 ^ (e - 23) := by
  rw [Nat.cast_pow, Nat.cast_ofNat, ← zpow_natCast, ← zpow_add₀ two_ne_zero, Nat.cast_ofNat, add_sub_cancel]

theorem ratioLog2_spec {n d : Nat} (hn : n ≠ 0) (hd : d ≠ 0) :
    (2 : ℚ) ^ ratioLog2 n d ≤ (n : ℚ) / d ∧ (n : ℚ) / d < (2 : ℚ) ^ (ratioLog2 n d + 1) := by
  have hd' : (0 : ℚ) < d := by exact_mod_cast Nat.pos_of_ne_zero hd
  have hnlo : (2 : ℚ) ^ n.log2 ≤ n := by exact_mod_cast Nat.log2_self_le hn
  have hnhi : (n : ℚ) < 2 ^ (n.log2 + 1) := by exact_mod_cast Nat.lt_log2_self
  have hdlo : (2 : ℚ) ^ d.log2 ≤ d := by exact_mod_cast Nat.log2_self_le hd
  have hdhi : (d : ℚ) < 2 ^ (d.log2 + 1) := by exact_mod_cast Nat.lt_log2_self
  have hlow : (2 : ℚ) ^ ((n.log2 : ℤ) - d.log2 - 1) ≤ (n : ℚ) / d :=
    calc (2 : ℚ) ^ ((n.log2 : ℤ) - d.log2 - 1)
      _ = 2 ^ n.log2 / 2 ^ (d.log2 + 1) := by rw [sub_sub, zpow_sub₀ two_ne_zero]; norm_cast
      _ ≤ (n : ℚ) / d := div_le_div₀ n.cast_nonneg hnlo hd' hdhi.le
  have hhigh : (n : ℚ) / d < (2 : ℚ) ^ ((n.log2 : ℤ) - d.log2 + 1) :=
    calc (n : ℚ) / d
      _ < 2 ^ (n.log2 + 1) / 2 ^ d.log2 := div_lt_div₀ hnhi hdlo (by positivity) (by positivity)
      _ = (2 : ℚ) ^ ((n.log2 : ℤ) - d.log2 + 1) := by
        rw [sub_add_eq_add_sub, zpow_sub₀ two_ne_zero]; norm_cast
  have hcompare : d * 2 ^ ((n.log2 : ℤ) - d.log2).toNat ≤ n * 2 ^ (-((n.log2 : ℤ) - d.log2)).toNat ↔
      (2 : ℚ) ^ ((n.log2 : ℤ) - d.log2) ≤ (n : ℚ) / d := by
    rw [two_zpow_eq_div, div_le_div_iff₀ (by positivity) hd', mul_comm (2 ^ _)]
    exact_mod_cast Iff.rfl
  rw [ratioLog2]
  split
  case isTrue h => exact ⟨hcompare.1 h, hhigh⟩
  case isFalse h => exact ⟨hlow, by rw [sub_add_cancel]; exact not_le.1 fun hle => h (hcompare.2 hle)⟩

/-! ## What a pattern stands for -/

/-- An integer with this sign. -/
def signedInt (neg : Bool) (m : Nat) : Int := if neg then -m else m

/-- The pattern's integer significand: the fraction, with the hidden bit above it in a normal number (R113). -/
def f32Significand (w : Word) : Nat := if f32Exponent w = 0 then f32Fraction w else 2 ^ 23 + f32Fraction w

/-- The exponent of the significand's last bit; the subnormal numbers share that of the least normal ones. -/
def f32Scale (w : Word) : Int := max (f32Exponent w : Int) 1 - 150

theorem f32Value_eq (w : Word) :
    f32Value w = (signedInt (w.getLsbD 31) (f32Significand w) : ℚ) * 2 ^ f32Scale w := by
  have hmagnitude : (if f32Exponent w = 0 then (f32Fraction w : ℚ) * 2 ^ (-149 : ℤ)
      else ((2 : ℚ) ^ 23 + f32Fraction w) * 2 ^ ((f32Exponent w : ℤ) - 150)) =
      f32Significand w * 2 ^ f32Scale w := by
    rw [f32Significand, f32Scale]
    split
    case isTrue hsub => rw [hsub]; rfl
    case isFalse hnormal => rw [max_eq_left (by omega)]; push_cast; rfl
  simp only [f32Value, hmagnitude, signedInt]
  split <;> push_cast <;> ring

theorem f32Significand_lt (w : Word) : f32Significand w < 2 ^ 24 := by
  have hfraction : f32Fraction w < 2 ^ 23 := (w.extractLsb' 0 23).isLt
  rw [f32Significand]
  split <;> omega

@[simp] theorem abs_signedInt (neg : Bool) (m : Nat) : |signedInt neg m| = m := by
  cases neg <;> simp [signedInt]

@[simp] theorem even_signedInt (neg : Bool) (m : Nat) : Even (signedInt neg m) ↔ Even m := by
  cases neg <;> simp [signedInt]

/-- A binary32 value is a multiple of `2^(e-23)` or smaller than `2^e`. -/
theorem f32Value_multiple_or_small (w : Word) (e : ℤ) :
    (∃ z : ℤ, f32Value w = z * 2 ^ (e - 23)) ∨ |f32Value w| < 2 ^ e := by
  rw [f32Value_eq]
  obtain hle | hlt := le_or_gt (e - 23) (f32Scale w)
  case inl =>
    obtain ⟨k, hk⟩ := Int.le.dest hle
    refine .inl ⟨signedInt (w.getLsbD 31) (f32Significand w) * 2 ^ k, ?_⟩
    rw [← hk, zpow_add₀ two_ne_zero, zpow_natCast]
    push_cast
    ring
  case inr =>
    refine .inr ?_
    have hsig : ((f32Significand w : ℕ) : ℚ) < 2 ^ (24 : ℤ) := by exact_mod_cast f32Significand_lt w
    calc |(signedInt (w.getLsbD 31) (f32Significand w) : ℚ) * 2 ^ f32Scale w|
      _ = f32Significand w * 2 ^ f32Scale w := by
        rw [abs_mul, abs_of_pos (by positivity : (0 : ℚ) < 2 ^ f32Scale w), ← Int.cast_abs, abs_signedInt,
          Int.cast_natCast]
      _ < 2 ^ (24 : ℤ) * 2 ^ f32Scale w := by gcongr
      _ = 2 ^ (24 + f32Scale w) := (zpow_add₀ two_ne_zero _ _).symm
      _ ≤ 2 ^ e := zpow_le_zpow_right₀ one_le_two (by omega)

/-! ## Packing a sign, an exponent and a significand -/

/-- The pattern of R112, from the significand with its hidden bit. -/
def packBinary32 (neg : Bool) (m : Nat) (e : Int) : Word :=
  BitVec.ofBool neg ++ BitVec.ofInt 8 (e + 127) ++ BitVec.ofNat 23 (m - 2 ^ 23)

/-- The same for a significand that rounding may have carried to `2^24`. -/
def packRounded (neg : Bool) (m : Nat) (e : Int) : Word :=
  if m = 2 ^ 24 then packBinary32 neg (2 ^ 23) (e + 1) else packBinary32 neg m e

/-- The pattern is finite, stands for `r * 2^(e-23)`, and ends in 0 if `r` is even. -/
structure Encodes (w : Word) (r e : ℤ) : Prop where
  finite : F32Finite w
  value : f32Value w = r * 2 ^ (e - 23)
  even : Even r → w.getLsbD 0 = false

section

variable (neg : Bool) {m : Nat} {e : Int}

theorem f32Exponent_packBinary32 (hlo : -127 ≤ e) (hhi : e ≤ 128) :
    (f32Exponent (packBinary32 neg m e) : Int) = e + 127 := by
  rw [f32Exponent, packBinary32, BitVec.extractLsb'_append_eq_of_le le_rfl, BitVec.extractLsb'_append_eq_right,
    BitVec.toNat_ofInt]
  omega

theorem f32Fraction_packBinary32 (hhi : m < 2 ^ 24) : f32Fraction (packBinary32 neg m e) = m - 2 ^ 23 := by
  rw [f32Fraction, packBinary32, BitVec.extractLsb'_append_eq_right, BitVec.toNat_ofNat]
  omega

theorem packBinary32_sign : (packBinary32 neg m e).getLsbD 31 = neg := by
  rw [packBinary32, BitVec.getLsbD_append, if_neg (by decide), BitVec.getLsbD_append, if_neg (by decide)]
  cases neg <;> rfl

theorem packBinary32_lsb (hlo : 2 ^ 23 ≤ m) (heven : Even m) : (packBinary32 neg m e).getLsbD 0 = false := by
  have hmod := Nat.even_iff.1 heven
  rw [packBinary32, BitVec.getLsbD_append, if_pos (by decide), BitVec.getLsbD_ofNat, Nat.testBit_zero]
  simp only [Bool.and_eq_false_iff, decide_eq_false_iff_not]
  omega

/-- A normal significand and exponent. -/
theorem encodes_packBinary32 (hm : 2 ^ 23 ≤ m) (hm' : m < 2 ^ 24) (he : -126 ≤ e) (he' : e ≤ 127) :
    Encodes (packBinary32 neg m e) (signedInt neg m) e := by
  have hexp : (f32Exponent (packBinary32 neg m e) : Int) = e + 127 :=
    f32Exponent_packBinary32 neg (by omega) (by omega)
  have hsig : f32Significand (packBinary32 neg m e) = m := by
    rw [f32Significand, if_neg (by omega), f32Fraction_packBinary32 neg hm']
    omega
  have hscale : f32Scale (packBinary32 neg m e) = e - 23 := by rw [f32Scale]; omega
  refine ⟨show f32Exponent _ < 255 by omega, ?_, fun h => ?_⟩
  · rw [f32Value_eq, packBinary32_sign, hsig, hscale]
  · exact packBinary32_lsb neg hm ((even_signedInt neg m).1 h)

/-- A carry to `2^24` is the least significand of the next exponent. -/
theorem encodes_packRounded (hm : 2 ^ 23 ≤ m) (hm' : m ≤ 2 ^ 24) (he : -126 ≤ e) (he' : e ≤ 127)
    (hcarry : m = 2 ^ 24 → e ≤ 126) : Encodes (packRounded neg m e) (signedInt neg m) e := by
  rw [packRounded]
  split
  case isTrue h =>
    have hnext : Encodes (packBinary32 neg (2 ^ 23) (e + 1)) (signedInt neg (2 ^ 23)) (e + 1) :=
      encodes_packBinary32 neg le_rfl (by norm_num) (by omega) (by have := hcarry h; omega)
    refine ⟨hnext.finite, ?_, fun _ => hnext.even ((even_signedInt neg _).2 (by decide))⟩
    rw [hnext.value, h, add_sub_right_comm, zpow_add₀ two_ne_zero]
    cases neg <;> (simp [signedInt]; ring)
  case isFalse h => exact encodes_packBinary32 neg hm (by omega) he he'

end

/-! ## The result of rne32 -/

/-- The significand of rne32, before a carry into the exponent. -/
def rneSignificand (n d : Nat) : Nat :=
  roundHalfEven (n * 2 ^ (23 - ratioLog2 n d).toNat) (d * 2 ^ (ratioLog2 n d - 23).toNat)

theorem rne32_of_ne_zero {num : Int} (den : Nat) (h : num ≠ 0) :
    rne32 num den = packRounded (decide (num < 0)) (rneSignificand num.natAbs den) (ratioLog2 num.natAbs den) := by
  rw [rne32, if_neg h, packRounded]
  split
  case isTrue hcarry =>
    simp only [rneSignificand, roundHalfEven] at hcarry
    simp only [hcarry]
    rfl
  case isFalse hnone =>
    simp only [rneSignificand, roundHalfEven] at hnone
    simp only [if_neg hnone]
    rfl

/-- The magnitudes of the normal numbers, up to the greatest finite value. -/
structure NormalRange (q : ℚ) : Prop where
  least : (2 : ℚ) ^ (-126 : ℤ) ≤ |q|
  greatest : |q| ≤ (2 : ℚ) ^ (128 : ℤ) - (2 : ℚ) ^ (104 : ℤ)

/-- Distances from q in units of `2^(e-23)`. -/
theorem abs_units_sub (z e : ℤ) (q : ℚ) :
    |(z : ℚ) * 2 ^ (e - 23) - q| = |(z : ℚ) - q / 2 ^ (e - 23)| * 2 ^ (e - 23) := by
  have hunit : (0 : ℚ) < 2 ^ (e - 23) := by positivity
  rw [← abs_of_pos hunit, ← abs_mul, abs_of_pos hunit, sub_mul, div_mul_cancel₀ _ hunit.ne']

/-- `w` is the pattern of q rounded to a multiple of `2^(e-23)`, where `2^e` is not above q. -/
structure RoundedTo (w : Word) (q : ℚ) (r e : ℤ) : Prop where
  encodes : Encodes w r e
  rounds : RoundsHalfEven r (q / 2 ^ (e - 23))
  exponent_le : (2 : ℚ) ^ e ≤ |q|

namespace RoundedTo

variable {w : Word} {q : ℚ} {r e : ℤ}

theorem quotient_ge (h : RoundedTo w q r e) : ((2 ^ 23 : ℕ) : ℚ) ≤ |q / 2 ^ (e - 23)| := by
  have hunit : (0 : ℚ) < 2 ^ (e - 23) := by positivity
  rw [abs_div, abs_of_pos hunit, le_div_iff₀ hunit, ← two_zpow_eq_units]
  exact h.exponent_le

/-- What is smaller than `2^e` is farther from q. -/
theorem dist_lt_of_small (h : RoundedTo w q r e) {x : ℚ} (hx : |x| < 2 ^ e) : |f32Value w - q| < |x - q| := by
  have hunit : (0 : ℚ) < 2 ^ (e - 23) := by positivity
  calc |f32Value w - q|
    _ = |(r : ℚ) - q / 2 ^ (e - 23)| * 2 ^ (e - 23) := by rw [h.encodes.value, abs_units_sub]
    _ ≤ (|q / 2 ^ (e - 23)| - (2 ^ 23 : ℕ)) * 2 ^ (e - 23) := by
      gcongr
      exact h.rounds.dist_le h.quotient_ge
    _ = |q| - 2 ^ e := by
      rw [sub_mul, abs_div, abs_of_pos hunit, div_mul_cancel₀ _ hunit.ne', ← two_zpow_eq_units]
    _ < |q| - |x| := by linarith
    _ ≤ |q - x| := abs_sub_abs_le_abs_sub q x
    _ = |x - q| := abs_sub_comm q x

theorem nearest (h : RoundedTo w q r e) (v : Word) : |f32Value w - q| ≤ |f32Value v - q| := by
  obtain ⟨z, hz⟩ | hsmall := f32Value_multiple_or_small v e
  · rw [h.encodes.value, hz, abs_units_sub, abs_units_sub]
    exact mul_le_mul_of_nonneg_right (h.rounds.nearest z) (by positivity)
  · exact (h.dist_lt_of_small hsmall).le

theorem lsb_of_tie (h : RoundedTo w q r e) {v : Word} (hne : f32Value v ≠ f32Value w)
    (htie : |f32Value w - q| = |f32Value v - q|) : w.getLsbD 0 = false := by
  obtain ⟨z, hz⟩ | hsmall := f32Value_multiple_or_small v e
  · rw [h.encodes.value, hz, abs_units_sub, abs_units_sub] at htie
    have hzr : z ≠ r := fun hzr => hne (by rw [hz, h.encodes.value, hzr])
    exact h.encodes.even (h.rounds.even_of_tie hzr (mul_right_cancel₀ (by positivity) htie))
  · exact absurd htie (h.dist_lt_of_small hsmall).ne

/-- The result is not 0, which is smaller than `2^e`. -/
theorem value_ne_zero (h : RoundedTo w q r e) : f32Value w ≠ 0 := by
  intro hzero
  have hfar := h.dist_lt_of_small (x := 0) (by rw [abs_zero]; positivity)
  rw [hzero] at hfar
  exact hfar.false

end RoundedTo

/-- The fraction that rne32 rounds is `|q| / 2^(e-23)`. -/
theorem scaled_fraction (n d : Nat) (e : ℤ) :
    ((n * 2 ^ (23 - e).toNat : ℕ) : ℚ) / (d * 2 ^ (e - 23).toNat : ℕ) = (n : ℚ) / d / 2 ^ (e - 23) := by
  rw [two_zpow_eq_div (e - 23), neg_sub, div_div_div_eq]
  push_cast
  rfl

/-- Rounding the magnitude of q and giving it the sign of q rounds q. -/
theorem RoundsHalfEven.signed {m : ℕ} {q u : ℚ} {neg : Bool} (h : RoundsHalfEven m (|q| / u))
    (hneg : neg = true ↔ q < 0) : RoundsHalfEven (signedInt neg m) (q / u) := by
  cases neg with
  | false =>
    have hq : 0 ≤ q := not_lt.1 fun hlt => nomatch hneg.2 hlt
    rwa [abs_of_nonneg hq] at h
  | true =>
    rw [abs_of_neg (hneg.1 rfl), neg_div] at h
    simpa [signedInt] using h.neg

/-- In the normal range the exponent fits its field, and where a carry would leave it there is none. -/
theorem NormalRange.encodes {q : ℚ} {m : ℕ} {e : ℤ} (h : NormalRange q) (hlo : (2 : ℚ) ^ e ≤ |q|)
    (hhi : |q| < 2 ^ (e + 1)) (hr : RoundsHalfEven m (|q| / 2 ^ (e - 23))) (neg : Bool) :
    Encodes (packRounded neg m e) (signedInt neg m) e := by
  have hunit : (0 : ℚ) < 2 ^ (e - 23) := by positivity
  have hemin : -126 < e + 1 := (zpow_lt_zpow_iff_right₀ one_lt_two).1 (h.least.trans_lt hhi)
  have hemax : e < 128 := by
    refine (zpow_lt_zpow_iff_right₀ (one_lt_two (α := ℚ))).1 ((hlo.trans h.greatest).trans_lt ?_)
    exact sub_lt_self _ (by positivity)
  have hmin : ((2 ^ 23 : ℕ) : ℤ) ≤ m := hr.int_le (by
    rw [Int.cast_natCast, le_div_iff₀ hunit, ← two_zpow_eq_units]
    exact hlo)
  have hmax : (m : ℤ) ≤ (2 ^ 24 : ℕ) := hr.le_int (by
    rw [Int.cast_natCast, div_le_iff₀ hunit, pow_succ, Nat.cast_mul, mul_right_comm, ← two_zpow_eq_units]
    rw [zpow_add_one₀ two_ne_zero] at hhi
    exact hhi.le)
  refine encodes_packRounded neg (by exact_mod_cast hmin) (by exact_mod_cast hmax) (by omega) (by omega)
    fun hcarry => ?_
  by_contra htop
  obtain rfl : e = 127 := by omega
  have hlast : (m : ℤ) ≤ 2 ^ 24 - 1 := hr.le_int (by
    rw [div_le_iff₀ hunit]
    exact h.greatest.trans (by norm_num))
  omega

/-- For a magnitude of a normal number, up to the greatest finite one, rne32 rounds to a multiple of the last bit. -/
theorem rne32_roundedTo {num : Int} {den : Nat} {q : ℚ} (hden : 0 < den) (hq : q = (num : ℚ) / den)
    (h : NormalRange q) : ∃ r e, RoundedTo (rne32 num den) q r e := by
  have hnum : num ≠ 0 := by
    rintro rfl
    have hleast := h.least
    rw [hq, Int.cast_zero, zero_div, abs_zero] at hleast
    exact absurd hleast (not_le.2 (by positivity))
  have habs : |q| = (num.natAbs : ℚ) / den := by
    rw [hq, abs_div, Nat.abs_cast, Nat.cast_natAbs, Int.cast_abs]
  have hneg : decide (num < 0) = true ↔ q < 0 := by
    have hden' : (0 : ℚ) < den := by exact_mod_cast hden
    rw [decide_eq_true_iff, hq, div_lt_iff₀ hden', zero_mul, Int.cast_lt_zero]
  obtain ⟨hexp, hexp'⟩ := ratioLog2_spec (Int.natAbs_ne_zero.2 hnum) hden.ne'
  have hrounds : RoundsHalfEven (rneSignificand num.natAbs den)
      (|q| / 2 ^ (ratioLog2 num.natAbs den - 23)) := by
    rw [habs, ← scaled_fraction]
    exact roundsHalfEven_roundHalfEven _ (by positivity)
  rw [← habs] at hexp hexp'
  rw [rne32_of_ne_zero den hnum]
  exact ⟨_, _, h.encodes hexp hexp' hrounds _, hrounds.signed hneg, hexp⟩

/-! ## The statements -/

/-- Settles O52: among the multiples of the last bit none is nearer, by the choice of R112; every other finite value
is farther. -/
theorem rneIsNearestTiesToEven : Obligations.RneIsNearestTiesToEven := by
  refine ⟨fun den => if_pos rfl, fun num den q hden hq hleast hgreatest => ?_⟩
  obtain ⟨r, e, hround⟩ := rne32_roundedTo hden hq ⟨hleast, hgreatest⟩
  exact ⟨hround.encodes.finite, fun w _ => hround.nearest w, fun w _ => hround.lsb_of_tie⟩

/-- 35 does not divide 9 * 65535, so no signal stands for 0 degrees (R105). -/
theorem tempNumerator_ne_zero (signal : Half) : -45 * 65535 + 175 * (signal.toNat : Int) ≠ 0 := by omega

/-- A fraction over 65535 that is not 0 and no greater than 130 is in the range of the normal numbers. -/
theorem normalRange_of_numerator {num : Int} (hne : num ≠ 0) (hbound : |num| ≤ 130 * 65535) :
    NormalRange ((num : ℚ) / (65535 : ℕ)) := by
  have hone : (1 : ℚ) ≤ |(num : ℚ)| := by exact_mod_cast Int.one_le_abs hne
  have hbound' : |(num : ℚ)| ≤ 130 * 65535 := by exact_mod_cast hbound
  constructor <;> rw [abs_div, Nat.abs_cast, Nat.cast_ofNat]
  · rw [le_div_iff₀ (by norm_num)]
    exact le_trans (by norm_num) hone
  · rw [div_le_iff₀ (by norm_num)]
    exact hbound'.trans (by norm_num)

theorem tempCelsius_roundedTo (signal : Half) :
    ∃ r e, RoundedTo (tempCelsius signal)
      (((-45 * 65535 + 175 * (signal.toNat : Int) : Int) : ℚ) / (65535 : ℕ)) r e := by
  have hsignal := signal.isLt
  exact rne32_roundedTo (by decide) rfl
    (normalRange_of_numerator (tempNumerator_ne_zero signal) (abs_le.2 (by omega)))

/-- Settles O45: the temperatures are in rne32's normal range, where its result is finite and not 0. -/
theorem rdTempcConvertsTheSignal : Obligations.RdTempcConvertsTheSignal := by
  refine ⟨rfl, readsGated_rdTempc, fun signal => ?exact, fun signal => ?range⟩
  case exact =>
    push_cast
    ring
  case range =>
    obtain ⟨r, e, hround⟩ := tempCelsius_roundedTo signal
    exact ⟨hround.encodes.finite, hround.value_ne_zero⟩

end Sys2Proof.Machine
end

section
/-! PROOF. The checksums, 42_checksum.md sections 1 and 2: the statements O48, O49, O55 and O56. -/

namespace Sys2Proof.Machine

open Sys2Proof

/-! ## The CRC of bytes and of a frame -/

/-- The rounds of R140 are the iterate of one round. -/
theorem crcRounds_eq_iterate (n : Nat) (v : Half) : crcRounds n v = crcRound^[n] v := by
  induction n generalizing v with
  | zero => rfl
  | succ n ih => rw [crcRounds, ih, Function.iterate_succ_apply]

/-- The first n bytes of a frame are F[0] to F[n-1], in order. -/
theorem take_toList_eq_map_frameByte (f : Frame) {n : Nat} (h : n ≤ 64) :
    f.toList.take n = (List.range n).map (frameByte f) := by
  refine List.ext_getElem (by simpa using h) fun i hleft hright => ?_
  have hi : i < n := by simpa using hright
  simp [frameByte_eq_getElem f i (hi.trans_le h)]

/-- The zero frame of R143, its CRC computed. -/
theorem crc16_zero_frame : crc16 (Vector.replicate 64 0x00) 64 = 0x2F40 := by decide +kernel

/-! ## The reads of the two checksums -/

theorem readsGated_rdDevcrc (s : State) : ReadsGated .rdDevcrc s (zext32 (deviceChecksum s.ofr)) :=
  readsGated_of_exec rfl

theorem readsGated_rdCrc (s : State) : ReadsGated .rdCrc s (zext32 s.ocrc) := readsGated_of_exec rfl

/-- READ at RD_DEVCRC's address while a frame is exposed. -/
theorem readPort_devcrc {s : State} (hvalid : s.ovalid = true) :
    readPort 0x1F s = zext32 (deviceChecksum s.ofr) := by
  simp [readPort, hvalid]

/-- READ at RD_CRC's address while a frame is exposed. -/
theorem readPort_crc {s : State} (hvalid : s.ovalid = true) : readPort 0x20 s = zext32 s.ocrc := by
  simp [readPort, hvalid]

/-- The last byte written is the checksum's high byte (R142). -/
theorem deviceChecksum_writeByte_last (f : Frame) (b : Byte) :
    deviceChecksum (writeByte f 63 b) = b ++ frameByte f 62 := by
  rw [deviceChecksum, le16, frameByte_writeByte_last, frameByte_writeByte_last_before f b 62 (by decide)]

/-- STATUS looks at neither the output frame nor its CRC. -/
theorem statusWord_ofr_ocrc (s : State) (f : Frame) (c : Half) :
    statusWord { s with ofr := f, ocrc := c } = statusWord s := rfl

/-! ## The statements -/

/-- Settles O48: the two gated words, OCRC being the CRC of OFR by the output invariant. -/
theorem checksumReadsReturnBothChecksums : Obligations.ChecksumReadsReturnBothChecksums := by
  refine ⟨rfl, rfl, readsGated_rdDevcrc, readsGated_rdCrc, fun s hinv hvalid => ?_, crc16_zero_frame⟩
  rw [exec_of_readsGated (readsGated_rdCrc s) hvalid, hinv.output hvalid, zext32]

/-- Settles O49: `completeFrame` takes whatever BUF and the last byte hold, writes no error, and READ gives the two
checksums each from its own register. -/
theorem checksumsAreNeverCompared : Obligations.ChecksumsAreNeverCompared := by
  refine ⟨statusWord_ofr_ocrc, fun s b hcnt => ?_⟩
  refine ⟨_, exec_push_last b ((cnt_not_below_iff s).2 hcnt), rfl, rfl, frameByte_writeByte_last_before _ _,
    frameByte_writeByte_last _ _, ?devcrc, readPort_crc rfl⟩
  case devcrc => rw [readPort_devcrc rfl, State.completeFrame_ofr, deviceChecksum_writeByte_last, zext32]

/-- Settles O55: the eight rounds as the iterate of one. -/
theorem crcByteIsEightReflectedRounds : Obligations.CrcByteIsEightReflectedRounds :=
  fun _ _ => crcRounds_eq_iterate 8 _

/-- Settles O56: the first n bytes of the frame are F[0] to F[n-1]. -/
theorem crcIsTheFoldOverTheBytes : Obligations.CrcIsTheFoldOverTheBytes := by
  refine ⟨crc16From_nil, crc16From_cons, fun f n hn => ?_⟩
  rw [crc16, take_toList_eq_map_frameByte f hn, crcInit]

end Sys2Proof.Machine
end

section
/-! PROOF. Reset and the order of commands, 70_reset_and_hazards.md: the statements O9 and O32. -/

namespace Sys2Proof.Machine

open Sys2Proof

/-! ## A word at the ports -/

/-- The step on a command or a read. -/
theorem step_word {s : State} {w : PortWord} {rest : List PortInput} (h : s.inputs = .word w :: rest) :
    step s = exec (decode w) { s with inputs := rest } := by
  simp [step, State.takeInput_cons s _ rest h]

/-! ## What a state right after a `rst` edge shows -/

/-- With no frame exposed a gated read is zero: no line of READ before the gating has a gated address (R100). -/
theorem readPort_gated_of_invalid {s : State} {a : ReadAddr} (hgated : gatedAddr a = true)
    (hinvalid : s.ovalid = false) : readPort a s = 0x00000000 := by
  have hrange : a ≤ 0x20 ∨ 0x30 ≤ a := by simpa [gatedAddr] using hgated
  have hstatus : a ≠ 0x21 := by bv_omega
  have hruncrc : a ≠ 0x22 := by bv_omega
  have hreserved : ¬ (0x23 ≤ a ∧ a ≤ 0x2F) := by bv_omega
  rw [readPort, if_neg hstatus, if_neg hruncrc, if_neg hreserved, if_pos hinvalid]

/-- STATUS joins CNT, SEQ, ERR_ILL and OVALID, which the edge sets to 0 (R29, R180). -/
theorem statusWord_resetEdge (s : State) : statusWord s.resetEdge = 0x00000000 := by
  simp [statusWord, zext32]

/-- RUNCRC shows RCRC, which the edge sets to the CRC of no byte (R30, R180). -/
theorem runcrcWord_resetEdge (s : State) : runcrcWord s.resetEdge = 0x0000FFFF := by
  simp [runcrcWord, zext32, crcInit]

/-- The edge sets OVALID to 0, and so gates every gated read (R100, R180). -/
theorem readPort_resetEdge_gated (s : State) {a : ReadAddr} (hgated : gatedAddr a = true) :
    readPort a s.resetEdge = 0x00000000 :=
  readPort_gated_of_invalid hgated s.resetEdge_ovalid

/-! ## The statements -/

/-- Settles O9: the word decodes to a well-formed instruction, which completes and leaves the inputs to come. -/
theorem everyEdgeTakesOneCommandInOrder : Obligations.EveryEdgeTakesOneCommandInOrder := by
  intro s w rest h
  obtain ⟨t, hexec, hinputs⟩ := exec_wellFormed_next (decode w) { s with inputs := rest } (decode_wellFormed w)
  exact ⟨t, (step_word h).trans hexec, hexec, hinputs⟩

/-- Settles O32: the next state is `resetEdge`, which does not look at the command word of the edge. -/
theorem resetEdgeSetsTheStatedValues : Obligations.ResetEdgeSetsTheStatedValues := by
  intro s c rest h
  exact ⟨_, step_rst h, rfl, rfl, rfl, rfl, rfl, rfl, rfl, statusWord_resetEdge _, runcrcWord_resetEdge _,
    fun _ hgated => readPort_resetEdge_gated _ hgated, fun _ => step_rst rfl⟩

end Sys2Proof.Machine
end

section
/-! PROOF. The encoder against the decoder, 30_encoding.md: the statements O2 and O4 to O6. -/

namespace Sys2Proof

/-- An index that fits its slice of the address is the number of that slice. -/
theorem ofNat_slice_toNat {w n : Nat} (h : n < 2 ^ w) : (BitVec.ofNat w n).toNat = n := by
  rw [BitVec.toNat_ofNat, Nat.mod_eq_of_lt h]

/-- Only PUSH and the indexed reads carry an operand; each has the lemma of its own block of words. -/
theorem decode_encode {i : Instr} (h : i.WellFormed) : decode (encode i) = i := by
  cases i with
  | push b => exact decode_push_append b
  | rdBin i =>
    have hfit : i < 16 := of_decide_eq_true h
    rw [encode, decode_rdBin_append, ofNat_slice_toNat hfit]
  | rdTof j =>
    have hfit : j < 4 := of_decide_eq_true h
    rw [encode, decode_rdTof_append, ofNat_slice_toNat hfit]
  | rdRaw k =>
    have hfit : k < 16 := of_decide_eq_true h
    rw [encode, decode_rdRaw_append, ofNat_slice_toNat hfit]
  | _ => rfl

theorem encode_decode_read (a : ReadAddr) : encode (decode (.read a)) = .read a := by
  revert a
  decide

/-- A command word is given back but for the `din` that its row ignores. -/
theorem encode_decode_command (cmd : CmdWord) :
    encode (decode (.command cmd)) = .command (if cmd.extractLsb' 8 2 = 0b10#2 then cmd else cmd &&& 0x300) := by
  rw [command_masked]
  obtain ⟨hop, hd⟩ | ⟨hop, hd⟩ | ⟨hop, hd⟩ | ⟨hop, hd⟩ := decodeCommand_cases cmd <;> rw [decode, hd, hop]
  case inl => rfl
  case inr.inl => rfl
  case inr.inr.inl =>
    rw [encode, if_pos rfl, ← hop, ← command_eq_op_append_din]
  case inr.inr.inr => rfl

/-! ## The statements -/

/-- Settles O4, by the forms of an instruction. -/
theorem decodingAnEncodedInstructionGivesItBack : Obligations.DecodingAnEncodedInstructionGivesItBack :=
  fun _ h => decode_encode h

/-- Settles O5: the read addresses are given back whole, the command words by their `op`. -/
theorem encodingADecodedWordGivesItBack : Obligations.EncodingADecodedWordGivesItBack :=
  ⟨encode_decode_read, encode_decode_command⟩

/-- Settles O2: the three indexed blocks, and the addresses without an index one by one. -/
theorem everyReadAddressSelectsItsForm : Obligations.EveryReadAddressSelectsItsForm := by
  refine ⟨decode_rdBin_append, decode_rdTof_append, decode_rdRaw_append, ?_⟩
  and_intros <;> rfl

/-- Settles O6: each word's `op` or block of addresses, and the operand below it. -/
theorem sampleWordsDecode : Obligations.SampleWordsDecode :=
  ⟨decode_nop_append 0xFF, decode_clear_append 0xA5, decode_push_append 0xAB, decode_illegal_append 0x77,
    decode_rdBin_append 15, decode_rdTof_append 3, rfl, rfl, rfl, rfl, rfl, decode_rdRaw_append 15⟩

end Sys2Proof
end

section
/-! PROOF. The two invariants of 10_state.md section 6: the statements O30 and O31. -/

namespace Sys2Proof.Machine

open Sys2Proof

/-- At a completion OCRC is the CRC of the new OFR by the capture invariant; a `rst` edge clears OVALID, and no other
step writes the output registers. -/
theorem step_outputInv {s t : State} (hinv : s.Inv) (h : step s = .next t) : t.OutputInv := by
  intro hvalid
  obtain ⟨_, ht⟩ | ⟨_, _, b, _, hc, ht⟩ | ⟨_, _, hsame⟩ := step_output_cases h
  · simp [ht] at hvalid
  · rw [ht]
    exact completeFrame_ocrc_eq_crc16 b (by rw [State.takeInput_cnt, hc]) (captureInv_takeInput hinv.capture)
  · rw [hsame.ovalid] at hvalid
    rw [hsame.ocrc, hsame.ofr, hinv.output hvalid]

theorem step_inv {s t : State} (hinv : s.Inv) (h : step s = .next t) : t.Inv :=
  ⟨step_captureInv hinv.capture h, step_outputInv hinv h⟩

/-- An empty capture, and no frame exposed. -/
theorem reset_inv : State.reset.Inv :=
  ⟨captureInv_of_restarted rfl rfl, fun hvalid => nomatch hvalid⟩

/-! ## The statements -/

/-- Settles O30: the output invariant of the next state rests on the capture invariant of this one. -/
theorem everyStepKeepsTheInvariants : Obligations.EveryStepKeepsTheInvariants :=
  fun _ _ hinv h => step_inv hinv h

/-- Settles O31, whatever BUF, OFR and OCRC hold. -/
theorem resetStateMeetsTheInvariants : Obligations.ResetStateMeetsTheInvariants := reset_inv

end Sys2Proof.Machine
end

section
/-! PROOF. The unspecified contents of BUF, OFR and OCRC, 10_state.md sections 2 and 3: the statement O34. Each operation
of Machine/Ops.lean keeps `SameShown`, the words of reads agree, and so both states take the same operation. -/

namespace Sys2Proof.Machine

open Sys2Proof

/-! ## What two such states show at the read port -/

theorem statusWord_congr {s s' : State} (h : SameShown s s') : statusWord s = statusWord s' := by
  rw [statusWord, statusWord, h.cnt, h.seq, h.errIll, h.ovalid]

theorem runcrcWord_congr {s s' : State} (h : SameShown s s') : runcrcWord s = runcrcWord s' := by
  rw [runcrcWord, runcrcWord, h.rcrc]

/-- A gated read looks at OFR and OCRC only while OVALID is 1 (R100). -/
theorem readPort_gated_congr_of_sameShown {s s' : State} (h : SameShown s s') {a : ReadAddr}
    (hgated : gatedAddr a = true) : readPort a s = readPort a s' := by
  cases hvalid : s.ovalid with
  | false =>
    rw [readPort_gated_of_invalid hgated hvalid, readPort_gated_of_invalid hgated (h.ovalid ▸ hvalid)]
  | true => exact readPort_gated_congr hgated h.config h.ovalid (h.ofr hvalid) (h.ocrc hvalid)

theorem readPort_congr_of_sameShown {s s' : State} (h : SameShown s s') (a : ReadAddr) :
    readPort a s = readPort a s' := by
  have blocks : a = 0x21 ∨ a = 0x22 ∨ (0x23 ≤ a ∧ a ≤ 0x2F) ∨ gatedAddr a = true := by
    revert a
    decide
  obtain rfl | rfl | ⟨hlo, hhi⟩ | hgated := blocks
  · exact statusWord_congr h
  · exact runcrcWord_congr h
  · rw [readPort_reserved s hlo hhi, readPort_reserved s' hlo hhi]
  · exact readPort_gated_congr_of_sameShown h hgated

/-! ## Each operation keeps the relation -/

namespace SameShown

variable {s s' t t' : State}

theorem withInputs (h : SameShown s s') (l : List PortInput) :
    SameShown { s with inputs := l } { s' with inputs := l } :=
  { h with inputs := rfl }

theorem resetEdge (h : SameShown s s') : SameShown s.resetEdge s'.resetEdge where
  config := h.config
  cnt := rfl
  rcrc := rfl
  ovalid := rfl
  seq := rfl
  errIll := rfl
  rdata := h.rdata
  inputs := h.inputs
  buf := fun _ hi => absurd hi (Nat.not_lt_zero _)
  ofr := fun hvalid => nomatch hvalid
  ocrc := fun hvalid => nomatch hvalid

theorem clearCapture (h : SameShown s s') : SameShown s.clearCapture s'.clearCapture :=
  { h with cnt := rfl, rcrc := rfl, buf := fun _ hi => absurd hi (Nat.not_lt_zero _) }

theorem recordIllegal (h : SameShown s s') : SameShown s.recordIllegal s'.recordIllegal :=
  { h with errIll := rfl }

theorem returnWord (h : SameShown s s') (w : Word) : SameShown (s.returnWord w) (s'.returnWord w) :=
  { h with rdata := rfl }

/-- The byte at index CNT comes to be shown, and both states have just written it. -/
theorem captureByte (h : SameShown s s') (b : Byte) (hc : s.cnt < 63) :
    SameShown (s.captureByte b) (s'.captureByte b) where
  __ := h
  cnt := congrArg (· + 1) h.cnt
  rcrc := congrArg (crc16Byte · b) h.rcrc
  buf := fun i hi => by
    rw [captureByte_cnt_toNat b hc] at hi
    rw [State.captureByte_buf, State.captureByte_buf, ← h.cnt]
    obtain rfl | hlt := Nat.eq_or_lt_of_le (Nat.le_of_lt_succ hi)
    · rw [frameByte_writeByte_same, frameByte_writeByte_same]
    · rw [frameByte_writeByte_other _ _ _ _ hlt.ne, frameByte_writeByte_other _ _ _ _ hlt.ne, h.buf i hlt]

/-- With CNT = 63 all bytes before the last are shown, and the last is written: the two frames are the same. -/
theorem completeFrame (h : SameShown s s') (b : Byte) (hc : s.cnt = 63) :
    SameShown (s.completeFrame b) (s'.completeFrame b) where
  __ := h
  cnt := rfl
  rcrc := rfl
  ovalid := rfl
  seq := congrArg (· + 1) h.seq
  buf := fun _ hi => absurd hi (Nat.not_lt_zero _)
  ofr := fun _ => frame_ext _ _ fun i hi => by
    rw [State.completeFrame_ofr, State.completeFrame_ofr]
    obtain rfl | hlt := Nat.eq_or_lt_of_le (Nat.le_of_lt_succ hi)
    · rw [frameByte_writeByte_last, frameByte_writeByte_last]
    · rw [frameByte_writeByte_last_before _ _ _ hlt, frameByte_writeByte_last_before _ _ _ hlt]
      exact h.buf i (by rw [hc]; exact hlt)
  ocrc := fun _ => congrArg (crc16Byte · b) h.rcrc

/-! ## Instructions and steps -/

theorem exec_push (h : SameShown s s') (b : Byte) :
    ∃ t t', exec (.push b) s = .next t ∧ exec (.push b) s' = .next t' ∧ SameShown t t' := by
  by_cases hc : s.cnt < 63
  · exact ⟨_, _, exec_push_below b hc, exec_push_below b (h.cnt ▸ hc), h.captureByte b hc⟩
  · exact ⟨_, _, exec_push_last b hc, exec_push_last b (h.cnt ▸ hc), h.completeFrame b ((cnt_not_below_iff s).1 hc)⟩

theorem exec_word (h : SameShown s s') (w : PortWord) :
    ∃ t t', exec (decode w) s = .next t ∧ exec (decode w) s' = .next t' ∧ SameShown t t' := by
  cases w with
  | command c =>
    obtain ⟨-, hd⟩ | ⟨-, hd⟩ | ⟨-, hd⟩ | ⟨-, hd⟩ := decodeCommand_cases c <;> rw [decode, hd]
    case inl => exact ⟨_, _, rfl, rfl, h⟩
    case inr.inl => exact ⟨_, _, rfl, rfl, h.clearCapture⟩
    case inr.inr.inl => exact h.exec_push _
    case inr.inr.inr => exact ⟨_, _, rfl, rfl, h.recordIllegal⟩
  | read a =>
    refine ⟨_, _, exec_read a s, exec_read a s', ?_⟩
    rw [readPort_congr_of_sameShown h a]
    exact h.returnWord _

/-- The two states have the same inputs to come, and so take the same one. -/
theorem step_next (h : SameShown s s') : ∃ t t', step s = .next t ∧ step s' = .next t' ∧ SameShown t t' := by
  rcases hs : s.inputs with _ | ⟨w | c, rest⟩ <;> have hs' := h.inputs.symm.trans hs
  case nil => exact ⟨s, s', step_idle hs, step_idle hs', h⟩
  case cons.word =>
    rw [step_word hs, step_word hs']
    exact (h.withInputs rest).exec_word w
  case cons.rst => exact ⟨_, _, step_rst hs, step_rst hs', (h.withInputs rest).resetEdge⟩

end SameShown

/-- Settles O34: both states take the same input, and the operation it stands for keeps the relation. -/
theorem unspecifiedContentsAreNeverObserved : Obligations.UnspecifiedContentsAreNeverObserved := by
  intro s s' t t' h hs hs'
  obtain ⟨u, u', hu, hu', hshown⟩ := h.step_next
  obtain rfl : u = t := Host.Outcome.next.inj (hu.symm.trans hs)
  obtain rfl : u' = t' := Host.Outcome.next.inj (hu'.symm.trans hs')
  exact hshown

end Sys2Proof.Machine
end

section
/-! PROOF. A step and a run as a whole, 60_exceptions.md section 1 and 30_encoding.md section 2: the statements O7, O8,
O10 and O40. -/

namespace Sys2Proof.Machine

open Sys2Proof

/-! ## Every step and every run completes -/

/-- Nothing driven is NOP, an `rst` edge always resets, and a word decodes to a well-formed instruction. -/
theorem step_completes (s : State) : ∃ t, step s = .next t := by
  rcases hs : s.inputs with _ | ⟨w | c, rest⟩
  case nil => exact ⟨s, step_idle hs⟩
  case cons.word =>
    obtain ⟨t, hexec, -⟩ := exec_wellFormed_next (decode w) { s with inputs := rest } (decode_wellFormed w)
    exact ⟨t, (step_word hs).trans hexec⟩
  case cons.rst => exact ⟨_, step_rst hs⟩

theorem run_completes (n : Nat) (s : State) : ∃ t, Sys2Proof.core.run n s = .next t := by
  induction n generalizing s with
  | zero => exact ⟨s, run_zero s⟩
  | succ n ih =>
    obtain ⟨u, hu⟩ := step_completes s
    obtain ⟨t, ht⟩ := ih u
    exact ⟨t, (run_succ n hu).trans ht⟩

/-- A run that is not empty is a step and the rest of the run. -/
theorem run_succ_inversion {n : Nat} {s t : State} (h : Sys2Proof.core.run (n + 1) s = .next t) :
    ∃ u, step s = .next u ∧ Sys2Proof.core.run n u = .next t := by
  obtain ⟨u, hu⟩ := step_completes s
  exact ⟨u, hu, (run_succ n hu).symm.trans h⟩

/-! ## A word of the opcode table on the ports -/

theorem portWord_of_decodeTableWord {nbits w : Nat} {i : Instr} (h : decodeTableWord nbits w = some i) :
    ∃ p, portWordOfTable nbits w = .ok p ∧ decode p = i := by
  rw [decodeTableWord] at h
  split at h
  case h_1 p hp => exact ⟨p, hp, Option.some.inj h⟩
  case h_2 => cases h

theorem withFetchWord_of_portWord {nbits w : Nat} {p : PortWord} (s : State) (h : portWordOfTable nbits w = .ok p) :
    s.withFetchWord nbits w = s.present p := by
  rw [State.withFetchWord, h]

/-- The word placed runs at the state as it was. -/
theorem step_present (p : PortWord) (s : State) : step (s.present p) = exec (decode p) s :=
  step_word (s.present_inputs p)

/-! ## The statements -/

/-- Settles O10, by the input that is next. -/
theorem everyStepGivesANextState : Obligations.EveryStepGivesANextState := step_completes

/-- Settles O7: the three forms of the schedule. -/
theorem stepRunsThePresentedInput : Obligations.StepRunsThePresentedInput :=
  ⟨fun _ _ _ h => step_word h, fun _ _ _ h => step_rst h, fun _ h => step_idle h⟩

/-- Settles O8: a word that the decoder reads is one that a port carries. -/
theorem placedTableWordRunsNext : Obligations.PlacedTableWordRunsNext := by
  intro s nbits w i h
  obtain ⟨p, hp, rfl⟩ := portWord_of_decodeTableWord h
  rw [withFetchWord_of_portWord s hp, step_present]

/-- Settles O40: the check of the index fails. -/
theorem illFormedIndexIsRefused : Obligations.IllFormedIndexIsRefused := by
  refine fun s => ⟨fun i hi => if_neg ?_, fun j hj => if_neg ?_, fun k hk => if_neg ?_⟩
  · simpa [binIndexOk] using hi
  · simpa [tofIndexOk] using hj
  · simpa [rawIndexOk] using hk

end Sys2Proof.Machine
end

section
/-! PROOF. OFR, OCRC, BUF and HUM_ORDER at a step and at the read port, 10_state.md sections 2 and 3, 00_scope.md section
4, and the state right after reset: the statements O22, O26, O27 and O33. -/

namespace Sys2Proof.Machine

open Sys2Proof

/-! ## At a step -/

/-- A PUSH with CNT = 63 completes the frame. -/
theorem step_of_pushed_last {s t : State} {b : Byte} (h : step s = .next t) (hb : s.nextInput.pushed = some b)
    (hc : s.cnt = 63) : t = s.takeInput.2.completeFrame b := by
  obtain ⟨hlt, _⟩ | ⟨_, ht⟩ := step_of_pushed h hb
  · exact absurd hlt ((cnt_not_below_iff s).2 hc)
  · exact ht

theorem step_buf_of_no_push {s t : State} (h : step s = .next t) (hrst : s.nextInput.isRst = false)
    (hpush : s.nextInput.pushed = none) : t.buf = s.buf := by
  cases step_effect h with
  | reset hrst' _ _ => simp [hrst] at hrst'
  | clear _ _ _ ht => simp [ht]
  | capture b _ _ hpush' _ _ => simp [hpush] at hpush'
  | complete b _ _ hpush' _ _ => simp [hpush] at hpush'
  | keep _ _ _ ht =>
    rw [ht]
    simp

@[simp] theorem State.takeInput_config (s : State) : s.takeInput.2.config = s.config := by rw [State.takeInput_state]

theorem step_config {s t : State} (h : step s = .next t) : t.config = s.config := by
  rw [← State.takeInput_config s]
  cases step_effect h with
  | reset _ _ ht => rw [ht, State.resetEdge_config]
  | clear _ _ _ ht => rw [ht, State.clearCapture_config]
  | capture b _ _ _ _ ht => rw [ht, State.captureByte_config]
  | complete b _ _ _ _ ht => rw [ht, State.completeFrame_config]
  | keep _ _ _ ht => rw [ht]

/-! ## At the read port -/

theorem readPort_buf (a : ReadAddr) (s : State) (f : Frame) : readPort a { s with buf := f } = readPort a s := rfl

/-- HUM_ORDER stands in the lines of 0x17 and 0x18 alone. -/
theorem readPort_config {a : ReadAddr} (s : State) (c : Config) (hsig : a ≠ 0x17) (hrh : a ≠ 0x18) :
    readPort a { s with config := c } = readPort a s := by
  simp only [readPort, if_neg hsig, if_neg hrh, statusWord, runcrcWord]

/-! ## The statements -/

/-- Settles O22: a step that is no completion leaves OFR and OCRC, and a gated read looks at them only through the
gating. -/
theorem outputFrameIsWrittenOnlyWhole : Obligations.OutputFrameIsWrittenOnlyWhole := by
  refine ⟨fun s t h hrst hdone => ?kept, fun s t b h hb hc => ?whole, fun s a hvalid hgated =>
    readPort_gated_of_invalid hgated hvalid, fun s u a hgated => readPort_gated_congr hgated⟩
  case kept =>
    obtain ⟨hrst', _⟩ | ⟨_, hdone', _⟩ | ⟨_, _, hsame⟩ := step_output_cases h
    · simp [hrst] at hrst'
    · simp [hdone] at hdone'
    · exact ⟨hsame.ofr, hsame.ocrc⟩
  case whole =>
    rw [step_of_pushed_last h hb hc, State.completeFrame_ofr, State.completeFrame_ocrc, State.takeInput_buf,
      State.takeInput_rcrc]
    exact ⟨frameByte_writeByte_last_before _ _, frameByte_writeByte_last _ _, rfl⟩

/-- Settles O26: PUSH writes its byte at index CNT, and READ has no line with BUF. -/
theorem bufIsWrittenByPushOnly : Obligations.BufIsWrittenByPushOnly := by
  refine ⟨fun s t => step_buf_of_no_push, fun s t b h hb => ?_, fun s f a => readPort_buf a s f⟩
  rw [step_writes_pushed h hb]
  exact ⟨frameByte_writeByte_same _ _ _, frameByte_writeByte_other _ _ _⟩

/-- Settles O27: no operation writes the configuration. -/
theorem humOrderNeverChangesAndReachesTwoReads : Obligations.HumOrderNeverChangesAndReachesTwoReads :=
  ⟨fun _ _ => step_config, fun s c _ => readPort_config s c⟩

/-- Settles O33: the values by definition, and every gated read by OVALID = 0. -/
theorem resetStateHoldsTheStatedValues : Obligations.ResetStateHoldsTheStatedValues :=
  ⟨rfl, rfl, rfl, rfl, rfl, rfl, rfl, fun _ hgated => readPort_gated_of_invalid hgated rfl⟩

end Sys2Proof.Machine
end

section
/-! PROOF. Completions along a run, 70_reset_and_hazards.md section 4 and 40_capture.md R88: the statements O17 to
O19. -/

namespace Sys2Proof.Machine

open Sys2Proof

/-! ## An assembly line at the ports -/

theorem step_asm {s : State} {i : Instr} {rest : List PortInput} (hwf : i.WellFormed)
    (h : s.inputs = asm i :: rest) : step s = exec i { s with inputs := rest } := by
  rw [step_word h, decode_encode hwf]

/-- The step on CLEAR. -/
theorem step_clear {s : State} {rest : List PortInput} (h : s.inputs = asm .clear :: rest) :
    step s = .next (State.clearCapture { s with inputs := rest }) := step_asm rfl h

/-- The step on the completing PUSH. -/
theorem step_push_last {s : State} {b : Byte} {rest : List PortInput} (hc : s.cnt = 63)
    (h : s.inputs = asm (.push b) :: rest) :
    step s = .next (State.completeFrame b { s with inputs := rest }) :=
  (step_asm rfl h).trans (exec_push_last b ((cnt_not_below_iff _).2 hc))

/-! ## What runs keep -/

/-- What every step keeps, every run keeps. -/
theorem run_keeps {P : State → Prop} (hstep : ∀ s t, P s → step s = .next t → P t) {n : Nat} {s t : State}
    (hs : P s) (h : Sys2Proof.core.run n s = .next t) : P t := by
  induction n generalizing s with
  | zero => exact run_zero_inj h ▸ hs
  | succ n ih =>
    obtain ⟨u, hu, ht⟩ := run_succ_inversion h
    exact ih (hstep s u hs hu) ht

theorem run_config {n : Nat} {s t : State} (h : Sys2Proof.core.run n s = .next t) : t.config = s.config :=
  run_keeps (P := fun u => u.config = s.config) (fun _ _ hu hstep => (step_config hstep).trans hu) rfl h

/-- A run takes the inputs in order. -/
theorem run_inputs {n : Nat} {s t : State} (h : Sys2Proof.core.run n s = .next t) : t.inputs = s.inputs.drop n := by
  induction n generalizing s with
  | zero => rw [run_zero_inj h, List.drop_zero]
  | succ n ih =>
    obtain ⟨u, hu, ht⟩ := run_succ_inversion h
    rw [ih ht, step_inputs hu, List.drop_tail]

/-! ## A frame captured byte by byte -/

/-- Since the capture was started at `start`, with SEQ as it is there, exactly `pushed` has been pushed: as the first
bytes of BUF, or, when it was a whole frame, as the output frame. -/
inductive CaptureProgress (start : State) (pushed : List Byte) (s : State) : Prop
  | underway (hbuf : s.buf.toList.take s.cnt.toNat = pushed) (hinv : s.CaptureInv) (hseq : s.seq = start.seq)
  | delivered (hofr : s.ofr.toList = pushed) (hocrc : s.ocrc = crc16 s.ofr 64) (hovalid : s.ovalid = true)
      (hseq : s.seq = start.seq + 1) (hcnt : s.cnt = 0) (hrcrc : s.rcrc = crcInit)

theorem captureProgress_clearCapture {start s : State} (hseq : s.seq = start.seq) :
    CaptureProgress start [] s.clearCapture :=
  .underway rfl (captureInv_of_restarted rfl rfl) hseq

namespace CaptureProgress

variable {start s t : State} {pushed : List Byte}

/-- It does not speak of the inputs to come, the word of a read and ERR_ILL. -/
theorem with_others (h : CaptureProgress start pushed s) (l : List PortInput) (w : Word) (e : Bool) :
    CaptureProgress start pushed { s with inputs := l, rdata := w, errIll := e } := by
  cases h with
  | underway hbuf hinv hseq => exact .underway hbuf hinv hseq
  | delivered hofr hocrc hovalid hseq hcnt hrcrc => exact .delivered hofr hocrc hovalid hseq hcnt hrcrc

theorem takeInput (h : CaptureProgress start pushed s) : CaptureProgress start pushed s.takeInput.2 := by
  rw [State.takeInput_state]
  exact h.with_others _ _ _

/-- While bytes are missing the capture is under way. -/
theorem of_short (h : CaptureProgress start pushed s) (hshort : pushed.length < 64) :
    s.buf.toList.take s.cnt.toNat = pushed ∧ s.CaptureInv ∧ s.seq = start.seq := by
  cases h with
  | underway hbuf hinv hseq => exact ⟨hbuf, hinv, hseq⟩
  | delivered hofr =>
    rw [← hofr, Vector.length_toList] at hshort
    exact absurd hshort (Nat.lt_irrefl 64)

theorem captureByte (h : CaptureProgress start pushed s) (hshort : pushed.length < 64) (b : Byte) (hc : s.cnt < 63) :
    CaptureProgress start (pushed ++ [b]) (s.captureByte b) := by
  obtain ⟨hbuf, hinv, hseq⟩ := h.of_short hshort
  refine .underway ?_ (captureInv_captureByte b hc hinv) hseq
  rw [captureByte_cnt_toNat b hc, State.captureByte_buf, take_writeByte_succ, hbuf]

theorem completeFrame (h : CaptureProgress start pushed s) (hshort : pushed.length < 64) (b : Byte)
    (hc : s.cnt = 63) : CaptureProgress start (pushed ++ [b]) (s.completeFrame b) := by
  obtain ⟨hbuf, hinv, hseq⟩ := h.of_short hshort
  refine .delivered ?_ (completeFrame_ocrc_eq_crc16 b hc hinv) rfl (congrArg (· + 1) hseq) rfl rfl
  rw [hc] at hbuf
  rw [State.completeFrame_ofr, toList_writeByte_last, ← hbuf]
  rfl

/-- A step that takes no CLEAR and no `rst` edge adds the byte it pushes, if there is one and it fits. -/
theorem step_next (h : CaptureProgress start pushed s) (hstep : step s = .next t)
    (hrst : s.nextInput.isRst = false) (hclear : s.nextInput.hasOp 0b01#2 = false)
    (hfits : (pushed ++ s.nextInput.pushed.toList).length ≤ 64) :
    CaptureProgress start (pushed ++ s.nextInput.pushed.toList) t := by
  have hshort {b : Byte} (hpush : s.nextInput.pushed = some b) : pushed.length < 64 := by
    simpa [hpush, Nat.succ_le_iff] using hfits
  cases step_effect hstep with
  | reset hrst' _ _ => simp [hrst] at hrst'
  | clear _ hclear' _ _ => simp [hclear] at hclear'
  | capture b _ _ hpush hc ht =>
    rw [hpush, ht]
    exact h.takeInput.captureByte (hshort hpush) b (by simpa using hc)
  | complete b _ _ hpush hc ht =>
    rw [hpush, ht]
    exact h.takeInput.completeFrame (hshort hpush) b (by simpa using hc)
  | keep _ _ hpush ht =>
    rw [hpush, ht, Option.toList_none, List.append_nil]
    exact h.takeInput.with_others _ _ _

end CaptureProgress

theorem pushedBytes_cons (i : PortInput) (l : List PortInput) :
    pushedBytes (i :: l) = i.pushed.toList ++ pushedBytes l := by
  cases hi : i.pushed <;> simp [pushedBytes, hi]

/-- A schedule of pushes, reads, NOPs and ILLEGALs adds the bytes it pushes, as long as they fit the frame. -/
theorem CaptureProgress.run_schedule {start s t : State} {pushed : List Byte} {l rest : List PortInput}
    (h : CaptureProgress start pushed s) (hkeep : keepsCapture l = true) (hinputs : s.inputs = l ++ rest)
    (hfits : (pushed ++ pushedBytes l).length ≤ 64) (hrun : Sys2Proof.core.run l.length s = .next t) :
    CaptureProgress start (pushed ++ pushedBytes l) t := by
  induction l generalizing s pushed with
  | nil =>
    rw [← run_zero_inj hrun, pushedBytes, List.filterMap_nil, List.append_nil]
    exact h
  | cons i l ih =>
    obtain ⟨u, hu, ht⟩ := run_succ_inversion hrun
    have hnext : s.nextInput = i := nextInput_cons hinputs
    have hkeep' : (i.isRst = false ∧ i.hasOp 0b01 = false) ∧ keepsCapture l = true := by
      simpa [keepsCapture] using hkeep
    obtain ⟨⟨hrst, hclear⟩, hkeepl⟩ := hkeep'
    rw [pushedBytes_cons, ← List.append_assoc] at hfits ⊢
    have hprogress : CaptureProgress start (pushed ++ i.pushed.toList) u := by
      rw [← hnext] at hrst hclear hfits ⊢
      exact h.step_next hu hrst hclear ((by simp : _ ≤ _).trans hfits)
    exact ih hprogress hkeepl (by rw [step_inputs hu, hinputs]; rfl) hfits ht

/-- 64 bytes pushed are the output frame. -/
theorem CaptureProgress.of_whole {start s : State} {f : Frame} (h : CaptureProgress start f.toList s) :
    s.ofr = f ∧ s.ocrc = crc16 f 64 ∧ s.ovalid = true ∧ s.seq = start.seq + 1 ∧ s.cnt = 0 ∧ s.rcrc = crcInit := by
  cases h with
  | underway hbuf =>
    have hlen := congrArg List.length hbuf
    have hcnt := s.cnt.isLt
    simp at hlen
    omega
  | delivered hofr hocrc hovalid hseq hcnt hrcrc =>
    obtain rfl : s.ofr = f := Vector.toList_inj.1 hofr
    exact ⟨rfl, hocrc, hovalid, hseq, hcnt, hrcrc⟩

/-! ## Completions are 64 pushes apart -/

/-- From `s` to `t` there were `k` completions, in at most `n` steps without a `rst` edge: each took 64 pushes, but for
the CNT that `s` begins with, and CNT of `t` counts towards the next. -/
structure Completions (k n : Nat) (s t : State) : Prop where
  pushes : 64 * k + t.cnt.toNat ≤ s.cnt.toNat + n
  seq : t.seq = s.seq + BitVec.ofNat 8 k
  output : k = 0 → t.ofr = s.ofr ∧ t.ocrc = s.ocrc ∧ t.ovalid = s.ovalid

namespace Completions

variable {j k m n : Nat} {s t u : State}

theorem refl (s : State) : Completions 0 0 s s :=
  ⟨by omega, by simp, fun _ => ⟨rfl, rfl, rfl⟩⟩

theorem trans (h : Completions j m s u) (h' : Completions k n u t) : Completions (j + k) (m + n) s t where
  pushes := by
    have hfirst := h.pushes
    have hsecond := h'.pushes
    omega
  seq := by rw [h'.seq, h.seq, BitVec.ofNat_add, BitVec.add_assoc]
  output := fun hzero => by
    obtain ⟨hj, hk⟩ := Nat.add_eq_zero_iff.1 hzero
    obtain ⟨hofr, hocrc, hovalid⟩ := h.output hj
    obtain ⟨hofr', hocrc', hovalid'⟩ := h'.output hk
    exact ⟨hofr'.trans hofr, hocrc'.trans hocrc, hovalid'.trans hovalid⟩

/-- A step that is no completion raises CNT by at most one. -/
theorem of_sameOutput (hsame : SameOutput s t) (hcnt : t.cnt.toNat ≤ s.cnt.toNat + 1) : Completions 0 1 s t :=
  ⟨by omega, by simp [hsame.seq], fun _ => ⟨hsame.ofr, hsame.ocrc, hsame.ovalid⟩⟩

/-- With at most 255 * 64 steps SEQ cannot come round to its value again, and so equal SEQ is no completion. -/
theorem eq_zero_of_seq (h : Completions k n s t) (hn : n ≤ 255 * 64) (hseq : t.seq = s.seq) : k = 0 := by
  have hpushes := h.pushes
  have hcnt := s.cnt.isLt
  have hk : BitVec.ofNat 8 k = 0 := by simpa [hseq] using h.seq
  have hmod : k % 256 = 0 := by simpa using congrArg BitVec.toNat hk
  omega

end Completions

theorem step_cnt_le {s t : State} (h : step s = .next t) : t.cnt.toNat ≤ s.cnt.toNat + 1 := by
  rw [step_cnt h]
  split_ifs <;> omega

theorem step_completions {s t : State} (h : step s = .next t) (hrst : s.nextInput.isRst = false) :
    ∃ k, Completions k 1 s t := by
  obtain ⟨hrst', _⟩ | ⟨_, _, b, _, hc, ht⟩ | ⟨_, _, hsame⟩ := step_output_cases h
  · simp [hrst] at hrst'
  · exact ⟨1, by simp [ht, hc], by simp [ht], fun h => nomatch h⟩
  · exact ⟨0, .of_sameOutput hsame (step_cnt_le h)⟩

/-- With nothing driven the next input is a NOP, and else it is the first of the schedule. -/
theorem nextInput_not_rst {s : State} {n : Nat} (h : ∀ i ∈ s.inputs.take (n + 1), i.isRst = false) :
    s.nextInput.isRst = false := by
  cases hs : s.inputs with
  | nil => rw [State.nextInput, State.takeInput_nil s hs]; rfl
  | cons i rest =>
    rw [nextInput_cons hs]
    exact h i (by simp [hs])

theorem run_completions {n : Nat} {s t : State} (hrst : ∀ i ∈ s.inputs.take n, i.isRst = false)
    (h : Sys2Proof.core.run n s = .next t) : ∃ k, Completions k n s t := by
  induction n generalizing s with
  | zero => exact ⟨0, run_zero_inj h ▸ .refl s⟩
  | succ n ih =>
    obtain ⟨u, hu, ht⟩ := run_succ_inversion h
    obtain ⟨j, hj⟩ := step_completions hu (nextInput_not_rst hrst)
    have hrest : ∀ i ∈ u.inputs.take n, i.isRst = false := fun i hi => hrst i <| by
      rw [step_inputs hu] at hi
      exact List.mem_of_mem_tail (by rwa [List.tail_take_eq_take_tail])
    obtain ⟨k, hk⟩ := ih hrest ht
    exact ⟨j + k, Nat.add_comm 1 n ▸ hj.trans hk⟩

/-! ## The statements -/

/-- Settles O17, by induction over the schedule after CLEAR. -/
theorem captureDeliversTheFrame : Obligations.CaptureDeliversTheFrame := by
  intro s f l rest hkeep hpushed hinputs
  obtain ⟨t, hrun⟩ := run_completes (l.length + 1) s
  have hrest : t.inputs = rest := by simp [run_inputs hrun, hinputs]
  have hstarted : CaptureProgress s [] (State.clearCapture { s with inputs := l ++ rest }) :=
    captureProgress_clearCapture rfl
  have hprogress := hstarted.run_schedule hkeep rfl (by simp [hpushed])
    ((run_succ l.length (step_clear hinputs)).symm.trans hrun)
  rw [List.nil_append, hpushed] at hprogress
  obtain ⟨hofr, hocrc, hovalid, hseq, hcnt, hrcrc⟩ := hprogress.of_whole
  exact ⟨t, hrun, hofr, hocrc, hovalid, hseq, hcnt, hrcrc, run_config hrun, hrest⟩

/-- Settles O18: SEQ counts the completions modulo 256, and at most 255 fit into the steps. -/
theorem equalSeqMeansTheSameFrame : Obligations.EqualSeqMeansTheSameFrame := by
  intro n s t hn hrst hrun hseq
  obtain ⟨k, hk⟩ := run_completions hrst hrun
  exact hk.output (hk.eq_zero_of_seq hn hseq)

/-- Settles O19: the first read leaves the frame and CNT, and the second sees the state that the PUSH makes. -/
theorem completionShowsAfterItsEdge : Obligations.CompletionShowsAfterItsEdge := by
  intro s b a rest hc h
  have hread := step_read h
  have hpush : step { s with rdata := readPort a s, inputs := asm (.push b) :: .word (.read a) :: rest } = _ :=
    step_push_last hc rfl
  exact ⟨_, _, run_succ 0 hread, rfl, (run_succ 2 hread).trans ((run_succ 1 hpush).trans (run_succ 0 (step_read rfl))),
    _, exec_push_last b ((cnt_not_below_iff s).2 hc), rfl⟩

end Sys2Proof.Machine
end

section
/-! PROOF. Fields as halves of raw words, 20_memory.md section 2, and the range and order of the two conversions,
41_frame_decode.md section 4: the statements O51, O53 and O54. -/

namespace Sys2Proof.Machine

open Sys2Proof

/-! ## The halves of a 32-bit field -/

/-- The four bytes as two pairs. -/
theorem le32_eq_append (f : Frame) (i : Nat) : le32 f i = le16 f (i + 2) ++ le16 f i := by
  apply BitVec.eq_of_toNat_eq
  simp only [le32, le16, toNat_append_eq_add]
  ring

theorem le32_low_half (f : Frame) (i : Nat) : (le32 f i).extractLsb' 0 16 = le16 f i := by
  rw [le32_eq_append, BitVec.extractLsb'_append_eq_right]

theorem le32_high_half (f : Frame) (i : Nat) : (le32 f i).extractLsb' 16 16 = le16 f (i + 2) := by
  rw [le32_eq_append, BitVec.extractLsb'_append_eq_left]

/-! ## Rounding to the nearest keeps the order -/

/-- No pattern stands for a value nearer to q. -/
def NearestTo (w : Word) (q : ℚ) : Prop := ∀ v : Word, |f32Value w - q| ≤ |f32Value v - q|

/-- If the greater value belonged to the smaller number, exchanging the two would bring one of them nearer. -/
theorem f32Value_mono_of_nearest {w w' : Word} {q q' : ℚ} (h : NearestTo w q) (h' : NearestTo w' q') (hlt : q < q') :
    f32Value w ≤ f32Value w' := by
  by_contra! hgt
  have hleft := sq_le_sq.2 (h w')
  have hright := sq_le_sq.2 (h' w)
  have hcrossed := mul_pos (sub_pos.2 hgt) (sub_pos.2 hlt)
  linarith

theorem nearestTo_rne32_zero (den : Nat) : NearestTo (rne32 0 den) 0 := by
  intro v
  have hzero : f32Value (rne32 0 den) = 0 := by
    rw [rneIsNearestTiesToEven.1 den]
    decide +kernel
  rw [hzero, sub_zero, abs_zero]
  exact abs_nonneg _

/-- Over the denominator of both conversions rne32 gives a nearest value. -/
theorem nearestTo_rne32 {num : Int} (hbound : |num| ≤ 130 * 65535) :
    NearestTo (rne32 num 65535) ((num : ℚ) / (65535 : ℕ)) := by
  by_cases hnum : num = 0
  · rw [hnum, Int.cast_zero, zero_div]
    exact nearestTo_rne32_zero _
  · obtain ⟨r, e, hround⟩ := rne32_roundedTo (by decide) rfl (normalRange_of_numerator hnum hbound)
    exact hround.nearest

/-- rne32 keeps the order of numerators over that denominator. -/
theorem f32Value_rne32_mono {m n : Int} (hm : |m| ≤ 130 * 65535) (hn : |n| ≤ 130 * 65535) (hle : m ≤ n) :
    f32Value (rne32 m 65535) ≤ f32Value (rne32 n 65535) := by
  obtain rfl | hlt := hle.eq_or_lt
  · exact le_rfl
  · refine f32Value_mono_of_nearest (nearestTo_rne32 hm) (nearestTo_rne32 hn) ?_
    exact div_lt_div_of_pos_right (by exact_mod_cast hlt) (by norm_num)

theorem tempCelsius_mono {a b : Half} (h : a ≤ b) : f32Value (tempCelsius a) ≤ f32Value (tempCelsius b) := by
  have ha := a.isLt
  have hb := b.isLt
  have hle : a.toNat ≤ b.toNat := h
  exact f32Value_rne32_mono (abs_le.2 (by omega)) (abs_le.2 (by omega)) (by omega)

theorem relativeHumidity_mono {a b : Half} (h : a ≤ b) :
    f32Value (relativeHumidity a) ≤ f32Value (relativeHumidity b) := by
  have ha := a.isLt
  have hb := b.isLt
  have hle : a.toNat ≤ b.toNat := h
  exact f32Value_rne32_mono (abs_le.2 (by omega)) (abs_le.2 (by omega)) (by omega)

/-! ## The statements -/

/-- Settles O51: the offset is that of a raw word or lies two bytes above it. -/
theorem sixteenBitFieldsAreHalvesOfRawWords : Obligations.SixteenBitFieldsAreHalvesOfRawWords := by
  intro f i _
  split
  case isTrue heven => rw [rawWord, le32_low_half, show 4 * (i / 2) = 2 * i by omega]
  case isFalse hodd => rw [rawWord, le32_high_half, show 4 * ((i - 1) / 2) + 2 = 2 * i by omega]

/-- Settles O53, each vector computed. -/
theorem conversionsAtTheVectors : Obligations.ConversionsAtTheVectors := by
  and_intros <;> decide

/-- The values of the patterns at the ends of both scales. -/
theorem f32Value_ends :
    f32Value (tempCelsius 0x0000) = -45 ∧ f32Value (tempCelsius 0xFFFF) = 130 ∧
    f32Value (relativeHumidity 0x0000) = 0 ∧ f32Value (relativeHumidity 0xFFFF) = 100 := by
  and_intros <;> decide +kernel

/-- Settles O54: the order by rounding to the nearest, and the range by the order and its two ends. -/
theorem conversionsAreMonotoneAndInRange : Obligations.ConversionsAreMonotoneAndInRange := by
  obtain ⟨htempLow, htempHigh, hhumLow, hhumHigh⟩ := f32Value_ends
  have hlow (a : Half) : 0x0000 ≤ a := Nat.zero_le _
  have hhigh (a : Half) : a ≤ 0xFFFF := Nat.le_of_lt_succ a.isLt
  refine ⟨fun _ _ => tempCelsius_mono, fun _ _ => relativeHumidity_mono, fun a => ⟨?_, ?_⟩, fun a => ⟨?_, ?_⟩⟩
  · exact htempLow ▸ tempCelsius_mono (hlow a)
  · exact htempHigh ▸ tempCelsius_mono (hhigh a)
  · exact hhumLow ▸ relativeHumidity_mono (hlow a)
  · exact hhumHigh ▸ relativeHumidity_mono (hhigh a)

end Sys2Proof.Machine
end

section
/-! PROOF. What the CRC detects, 42_checksum.md sections 1 and 3: the statements O57 to O59. -/

namespace Sys2Proof.Machine

open Sys2Proof

/-- The CRC takes in one more byte of the frame. -/
theorem crc16_succ (f : Frame) {n : Nat} (h : n < 64) : crc16 f (n + 1) = crc16Byte (crc16 f n) (frameByte f n) := by
  have hbyte : f.toList[n]? = some (frameByte f n) := by
    rw [frameByte_eq_getElem f n h]
    simp [h]
  rw [crc16, List.take_add_one, hbyte, Option.toList_some, crc16From_snoc, ← crc16]

/-! ## The residue -/

/-- While zeros are shifted out the polynomial is not taken in. -/
theorem crcRounds_of_low_zero {n : Nat} {v : Half} (h : ∀ i < n, v.getLsbD i = false) : crcRounds n v = v >>> n := by
  induction n generalizing v with
  | zero => rw [crcRounds, BitVec.ushiftRight_zero]
  | succ n ih =>
    have hround : crcRound v = v >>> 1 := if_neg (Bool.eq_false_iff.1 (h 0 n.succ_pos))
    have hlow : ∀ i < n, (v >>> 1).getLsbD i = false := fun i hi => by
      rw [BitVec.getLsbD_ushiftRight]
      exact h _ (by omega)
    rw [crcRounds, hround, ih hlow, ← BitVec.shiftRight_add, Nat.add_comm]

/-- A byte equal to the low byte of the CRC leaves its high byte. -/
theorem crc16Byte_low_byte (hi lo : Byte) : crc16Byte (hi ++ lo) lo = 0#8 ++ hi := by
  have hxor : (hi ++ lo) ^^^ lo.setWidth 16 = hi ++ 0#8 := by
    rw [show lo.setWidth 16 = 0#8 ++ lo from (BitVec.setWidth_eq_append (by decide)), BitVec.xor_append]
    simp
  have hlow : ∀ i < 8, (hi ++ 0#8).getLsbD i = false := fun i hlt => by rw [BitVec.getLsbD_append, if_pos hlt]; simp
  rw [crc16Byte, hxor, crcRounds_of_low_zero hlow]
  apply BitVec.eq_of_toNat_eq
  rw [BitVec.toNat_ushiftRight, toNat_append_eq_add, toNat_append_eq_add, Nat.shiftRight_eq_div_pow]
  simp

/-- Both bytes of the CRC itself, low byte first, leave 0. -/
theorem crc16Byte_own_bytes (hi lo : Byte) : crc16Byte (crc16Byte (hi ++ lo) lo) hi = 0x0000 :=
  calc crc16Byte (crc16Byte (hi ++ lo) lo) hi
    _ = crc16Byte (0#8 ++ hi) hi := by rw [crc16Byte_low_byte]
    _ = 0#8 ++ 0#8 := crc16Byte_low_byte 0 hi

theorem crc16_residue {f : Frame} (h : deviceChecksum f = crc16 f 62) : crc16 f 64 = 0x0000 := by
  rw [crc16_succ f (n := 63) (by decide), crc16_succ f (n := 62) (by decide), ← h]
  exact crc16Byte_own_bytes _ _

/-! ## A changed byte -/

/-- The top bit of the polynomial tells whether the polynomial was taken in, and so which bit was shifted out. -/
theorem crcRound_msb (v : Half) : (crcRound v).getLsbD 15 = v.getLsbD 0 := by
  rw [crcRound]
  split <;> simp_all [crcPoly]

theorem crcRound_injective : Function.Injective crcRound := by
  intro v w h
  have hlow : v.getLsbD 0 = w.getLsbD 0 := by rw [← crcRound_msb, h, crcRound_msb]
  have hshift : v >>> 1 = w >>> 1 := by
    rw [crcRound, crcRound, hlow] at h
    split at h
    · exact (BitVec.xor_left_inj _).1 h
    · exact h
  refine BitVec.eq_of_getLsbD_eq fun i _ => ?_
  cases i with
  | zero => exact hlow
  | succ i => simpa [Nat.add_comm] using congrArg (·.getLsbD i) hshift

theorem crcRounds_injective (n : Nat) : Function.Injective (crcRounds n) := by
  induction n with
  | zero => exact fun _ _ h => h
  | succ n ih => exact ih.comp crcRound_injective

theorem crc16Byte_left_injective (b : Byte) : Function.Injective (crc16Byte · b) :=
  fun _ _ h => (BitVec.xor_left_inj _).1 (crcRounds_injective 8 h)

theorem crc16Byte_right_injective (c : Half) : Function.Injective (crc16Byte c) := fun x y h => by
  have hwide := (BitVec.xor_right_inj _).1 (crcRounds_injective 8 h)
  simpa using congrArg (BitVec.setWidth 8) hwide

/-- Different values of the CRC stay different over the same bytes. -/
theorem crc16From_injective (bs : List Byte) : Function.Injective (crc16From · bs) := by
  induction bs with
  | nil => exact fun _ _ h => h
  | cons b bs ih => exact ih.comp (crc16Byte_left_injective b)

/-- The CRC of a frame with byte i written: the bytes before it, that byte, the bytes after it. -/
theorem crc16_writeByte (f : Frame) (i : BitVec 6) (b : Byte) :
    crc16 (writeByte f i b) 64 = crc16From (crc16Byte (crc16 f i.toNat) b) (f.toList.drop (i.toNat + 1)) := by
  have hi : i.toNat < f.toList.length := by simpa using i.isLt
  rw [crc16_whole, writeByte, Vector.toList_set, List.set_eq_take_append_cons_drop, if_pos hi, crc16From_append,
    crc16From_cons, crc16]

theorem writeByte_same (f : Frame) (i : BitVec 6) : writeByte f i (frameByte f i.toNat) = f := by
  rw [writeByte, frameByte_eq_getElem f _ i.isLt, Vector.set_getElem_self]

/-! ## The statements -/

/-- Settles O57, each value computed. -/
theorem crcCheckValues : Obligations.CrcCheckValues := by
  and_intros <;> decide +kernel

/-- Settles O58: the last two bytes shift out the CRC that they equal. -/
theorem frameCarryingItsCrcHasResidueZero : Obligations.FrameCarryingItsCrcHasResidueZero := by
  intro f h
  have hzero := crc16_residue h
  exact ⟨hzero, by rw [hzero, h, eq_comm]⟩

/-- Settles O59: the fold is injective in the byte and in the CRC it goes on from. -/
theorem oneChangedByteChangesTheChecksum : Obligations.OneChangedByteChangesTheChecksum := by
  intro f i b hne hsame
  rw [← writeByte_same f i, crc16_writeByte, crc16_writeByte, writeByte_same] at hsame
  exact hne (crc16Byte_right_injective _ (crc16From_injective _ hsame))

end Sys2Proof.Machine
end
